-- ==== Sys2Proof/Word.lean ====
section
/-! DEFINITION. The word types of the block (spec/00_scope.md R5, R6, R8): every value is an unsigned bit vector. -/

namespace Sys2Proof

/-- A byte of the source-buffer space (R50). -/
abbrev Byte := BitVec 8

/-- A `PixelValue`: PIXEL_BITS = 16 (R5). -/
abbrev Pixel := BitVec 16

/-- A transfer word, a slot, a pixel count, a source address: WORD_BITS = COUNT_BITS = ADDR_BITS = 32 (R5, R6). -/
abbrev Word := BitVec 32

/-- The transfer-length field, LEN_BITS = 9 (R6). -/
abbrev Len := BitVec 9

/-- The slot index register, IDX_BITS = 5 (R6). -/
abbrev Idx := BitVec 5

/-- A command descriptor, DESC_BITS = 96 (R6, R71). -/
abbrev Desc := BitVec 96

/-- An encoded micro-operation, UOP_BITS = 40 (R6, R72). -/
abbrev Uop := BitVec 40

end Sys2Proof
end

