-- ==== Sys2Proof/Config.lean ====
section
/-! DEFINITION. What is fixed for one instance of the block (R5 to R7), and the one free value of the model. -/

namespace Sys2Proof

/-- `BUS_MODE` (R7, open parameter O1): the build-time bus width flag. -/
inductive BusMode where
  /-- The only mode the spec has rules for. -/
  | serial
  /-- No rule; the model refuses it (U17). -/
  | parallel8
  deriving DecidableEq, Repr

/-- `SRC_ALIGN` (R6, R52): the alignment WRPIX needs of its source address. -/
inductive SrcAlign where
  /-- `SRC_ALIGN = 1`: no access needs alignment; the value this spec fixes. -/
  | one
  /-- `SRC_ALIGN = 4`: the alternative R52 gives to a platform that cannot read unaligned words. -/
  | four
  deriving DecidableEq, Repr

/-- The parameters a model takes as arguments (R7, R52).
They stand in the state as a field no step writes, so that a statement about every state covers every value of them. -/
structure Params where
  busMode : BusMode
  srcAlign : SrcAlign
  /-- `RBC_BASE` (open parameter O2): where the register space stands in a larger address map.
  DESIGN CHOICE (log entry 26): the spec gives it the range "any" and no width; here it is a 32-bit address. -/
  rbcBase : Word
  deriving DecidableEq, Repr

/-- SLOT_COUNT (R5). -/
def Config.slotCount : Nat := 16

/-- WINDOW_PIXELS (R5): the pixels of a full burst. -/
def Config.windowPixels : Nat := 32

/-- HALF_PIXELS (R5): the pixels of the half burst of WRPIXS. -/
def Config.halfPixels : Nat := 16

/-- LEN_FULL (R5). -/
def Config.lenFull : Len := 511

/-- LEN_HALF (R5). -/
def Config.lenHalf : Len := 255

/-- FREE VALUE (log entry 5): which of several enabled agents steps next, where the schedule the state carries
says nothing (R10 "may schedule any enabled agent at any point"; U16).
The argument is the state's counter `turn`; the value counts into the list of the enabled agents, modulo its length. -/
opaque Config.freeAgent : Nat → Nat

end Sys2Proof
end

