-- ==== Sys2Proof/Syntax.lean ====
section
/-! DEFINITION. The instruction set as syntax: one constructor per row of spec/opcode_table.json (R70, R79). -/

namespace Sys2Proof

/-- The three commands and the five micro-operations (R70).
Every operand has exactly the width its field has in the encoding (R73, R75), so no operand is out of range. -/
inductive Instr where
  /-- `FILL color, count` (R125). -/
  | fill (color : Pixel) (count : Word)
  /-- `WRPIX src, count` (R145). -/
  | wrpix (src count : Word)
  /-- `WRPIXS src, count` (R160). -/
  | wrpixs (src count : Word)
  /-- `RDBUSY` (R94). -/
  | rdbusy
  /-- `START` (R93): a write of the START register; `go` is `DATA[0]`.
  `go = true` is the micro-operation `START`; `go = false` is the same write with `DATA[0] = 0`, the one
  encoding that is a no-operation (R54, R77). -/
  | start (go : Bool)
  /-- `SETLEN v` (R91). -/
  | setlen (v : Len)
  /-- `WRSLOT i, w` (R92). -/
  | wrslot (i : BitVec 4) (w : Word)
  /-- `WAITIDLE` (R95): the pseudo-operation with no encoding of its own (R80). -/
  | waitidle
  deriving DecidableEq, Repr

end Sys2Proof
end

