-- ==== Sys2Proof/Decode.lean ====
section
/-! DEFINITION. The encodings of spec/30_encoding.md: the decoder of each port, total on its words and rejecting by
name, and the encoder after it. -/

namespace Sys2Proof

/-- One instruction as a port carries it (R70): each port carries one format only. -/
inductive PortWord where
  /-- A DESC96 descriptor at the host command port (R71). -/
  | desc96 (d : Desc)
  /-- A UOP40 access to the register space (R72). -/
  | uop40 (u : Uop)
  /-- The pseudo-operation WAITIDLE, which has no bits of its own (R75, R80). -/
  | pseudo
  deriving DecidableEq, Repr

/-- Why a word is a reserved encoding (R76 for descriptors, R77 for register accesses). -/
inductive DecodeError where
  /-- `KIND = 0` with `SWAP = 1`. -/
  | swapWithSolidFill
  /-- Any of `D[93:80]` set. -/
  | reservedBits
  /-- `KIND = 1` with `COLOR != 0`. -/
  | colorWithSequence
  /-- `KIND = 0` with `SRC != 0`. -/
  | srcWithSolidFill
  /-- `OFF[1:0] != 0`. -/
  | misalignedOffset
  /-- `OFF` = 0x0C to 0x3C. -/
  | reservedOffset
  /-- A read of `START`, `LEN` or a slot. -/
  | readOfWriteOnly
  /-- A write of `STATUS`. -/
  | writeOfStatus
  /-- A read with `DATA != 0`. -/
  | readWithData
  deriving DecidableEq, Repr

/-! ### Fields of a descriptor (R71) -/

/-- `KIND`, `D[95]`: 0 = SolidFill, 1 = Sequence. -/
def descKind (d : Desc) : Bool := d.getLsbD 95

/-- `SWAP`, `D[94]`. -/
def descSwap (d : Desc) : Bool := d.getLsbD 94

/-- The reserved bits `D[93:80]`. -/
def descReserved (d : Desc) : BitVec 14 := d.extractLsb' 80 14

/-- `COLOR`, `D[79:64]`. -/
def descColor (d : Desc) : Pixel := d.extractLsb' 64 16

/-- `COUNT`, `D[63:32]`. -/
def descCount (d : Desc) : Word := d.extractLsb' 32 32

/-- `SRC`, `D[31:0]`. -/
def descSrc (d : Desc) : Word := d.extractLsb' 0 32

/-- A descriptor from the three words the host hands over, word 0 first (R71). -/
def descOfWords (w0 w1 w2 : Word) : Desc := w0 ++ w1 ++ w2

/-! ### Fields of a micro-operation (R72) -/

/-- `WR`, `U[39]`. -/
def uopWr (u : Uop) : Bool := u.getLsbD 39

/-- `OFF`, `U[38:32]`. -/
def uopOff (u : Uop) : BitVec 7 := u.extractLsb' 32 7

/-- `DATA`, `U[31:0]`. -/
def uopData (u : Uop) : Word := u.extractLsb' 0 32

/-! ### Decoders -/

/-- The command a descriptor is (R74), or why it is reserved (R76). -/
def decodeDesc (d : Desc) : Except DecodeError Instr :=
  if descReserved d ≠ 0 then .error .reservedBits
  else match descKind d, descSwap d with
    | false, true => .error .swapWithSolidFill
    | false, false =>
      if descSrc d ≠ 0 then .error .srcWithSolidFill else .ok (.fill (descColor d) (descCount d))
    | true, false =>
      if descColor d ≠ 0 then .error .colorWithSequence else .ok (.wrpix (descSrc d) (descCount d))
    | true, true =>
      if descColor d ≠ 0 then .error .colorWithSequence else .ok (.wrpixs (descSrc d) (descCount d))

/-- The micro-operation an access to the register space is (R54, R75), or why it is reserved (R77).
A write of START with `DATA[0] = 0` is the no-operation of R77, `.start false`. -/
def decodeUop (u : Uop) : Except DecodeError Instr :=
  let off := uopOff u
  let data := uopData u
  if off.extractLsb' 0 2 ≠ 0 then .error .misalignedOffset
  else if off.getLsbD 6 then
    if uopWr u then .ok (.wrslot (off.extractLsb' 2 4) data) else .error .readOfWriteOnly
  else if off = 0x00#7 then
    if uopWr u then .error .writeOfStatus
    else if data ≠ 0 then .error .readWithData else .ok .rdbusy
  else if off = 0x04#7 then
    if uopWr u then .ok (.start (data.getLsbD 0)) else .error .readOfWriteOnly
  else if off = 0x08#7 then
    if uopWr u then .ok (.setlen (data.extractLsb' 0 9)) else .error .readOfWriteOnly
  else .error .reservedOffset

/-- The instruction a port's word stands for. -/
def decodePort : PortWord → Except DecodeError Instr
  | .desc96 d => decodeDesc d
  | .uop40 u => decodeUop u
  | .pseudo => .ok .waitidle

/-! ### Encoder -/

/-- A descriptor from its fields, the reserved bits 0 (R71). -/
def encodeDesc (kind swap : Bool) (color : Pixel) (count src : Word) : Desc :=
  BitVec.ofBool kind ++ BitVec.ofBool swap ++ 0#14 ++ color ++ count ++ src

/-- A register access from its fields (R72). -/
def encodeUop (wr : Bool) (off : BitVec 7) (data : Word) : Uop :=
  BitVec.ofBool wr ++ off ++ data

/-- The word of an instruction (R74, R75); ignored bits are written 0. -/
def encode : Instr → PortWord
  | .fill color count => .desc96 (encodeDesc false false color count 0)
  | .wrpix src count => .desc96 (encodeDesc true false 0 count src)
  | .wrpixs src count => .desc96 (encodeDesc true true 0 count src)
  | .rdbusy => .uop40 (encodeUop false 0x00#7 0)
  | .start go => .uop40 (encodeUop true 0x04#7 ((BitVec.ofBool go).setWidth 32))
  | .setlen v => .uop40 (encodeUop true 0x08#7 (v.setWidth 32))
  | .wrslot i w => .uop40 (encodeUop true (1#1 ++ i ++ 0#2) w)
  | .waitidle => .pseudo

/-! ### The words of the opcode table -/

/-- The port word of a table row of `nbits` bits whose bits, numbered as the table numbers them (D[95:0], U[39:0]),
are `w`; the row of width 0 is the pseudo-operation WAITIDLE. -/
def tableWord (nbits w : Nat) : Option PortWord :=
  if nbits = 96 then some (.desc96 (BitVec.ofNat 96 w))
  else if nbits = 40 then some (.uop40 (BitVec.ofNat 40 w))
  else if nbits = 0 then some .pseudo
  else none

/-- The instruction the decoder reads from a word of the opcode table. -/
def decodeTableWord (nbits w : Nat) : Option Instr :=
  match tableWord nbits w with
  | none => none
  | some p =>
    match decodePort p with
    | .ok i => some i
    | .error _ => none

end Sys2Proof
end

