-- ==== Sys2Proof/Machine/State.lean ====
section
/-! DEFINITION. The state of the block (spec/10_state.md R20) and of what stands around it: the parameters, the
source-buffer space, the host's pending actions and the schedule. Plain data. -/

namespace Sys2Proof.Machine

/-- The sequencer's `PHASE` register, the block's program counter: 33 values (R29). -/
inductive Phase where
  | idle
  | fEntry | fRwait | fRlen | fRslot | fRstart | fPwait | fPslot | fLwait | fLlen | fLstart
  | wEntry | wFwait | wFlen | wFslot | wFstart | wTwait | wTlen | wTslot | wTstart
  | sEntry | sAwait | sAlen | sAslot | sAstart | sBwait | sBlen | sBslot | sBstart | sCwait | sClen | sCslot | sCstart
  deriving DecidableEq, Repr

/-- The three agents that take steps (R10). -/
inductive Agent where
  | host | seq | burst
  deriving DecidableEq, Repr

/-- One action of the HOST agent, pending in the state's list `host` (R175, R178, R180, R210). -/
inductive HostAct where
  /-- Hand a word to a port: `ISSUE` of a descriptor, a register access, or the pseudo-operation WAITIDLE. -/
  | op (p : PortWord)
  /-- Wait until `SEQ_ACTIVE = 0`, the first half of the host idiom of R178. -/
  | awaitDone
  /-- Read the status output `SEQ_ACTIVE` (R178). -/
  | readActive
  /-- Change one byte of the source-buffer space: write it, or (`none`) take it out of the readable space (R57, R180). -/
  | poke (a : Word) (b : Option Byte)
  /-- The one external reset (R210, R211). -/
  | reset
  deriving DecidableEq, Repr

/-- Why the machine stops with a fault: the contract violations of R186 (V1 to V5 and the stuck case of V7), and one
state no run reaches. -/
inductive Fault where
  /-- V1 (R187): `START` while `BUSY = 1`, by HOST. Safe: the effect is undefined, the model makes none up. -/
  | startWhileBusy
  /-- V2 (R188): `SETLEN` or `WRSLOT` while `BUSY = 1`, by HOST. Safe. -/
  | mutateWhileBusy
  /-- V3 (R189): `START` while `LEN` or a covered slot holds no value since reset, by HOST. Safe. -/
  | startUnwritten
  /-- V4 (R190): `SETLEN`, `WRSLOT` or `START` by HOST while a command is active. Safe. -/
  | hostMutationWhileActive
  /-- V5 (R192): `ISSUE` while a command is active, by HOST. Safe. -/
  | issueWhileActive
  /-- V7, the unreadable case (R194, U7): SEQ is stuck at a slot phase whose source byte cannot be read. Safe. -/
  | sourceUnreadable
  /-- SEQ at a slot phase with `IDX` above 15: no such WRSLOT can be encoded (R92), and no run reaches such a state
  (log entry 11). Safe. -/
  | slotIndexTooBig
  deriving DecidableEq, Repr

/-- Why the model gives an input no meaning (the treatment `refuse` of spec/93_implementation_defined.md). -/
inductive Refusal where
  /-- An instruction whose arm in `exec` has no meaning yet. Safe. -/
  | notModelled (mnemonic : String)
  /-- V6 (R193, U6): a reserved descriptor or register access, raised by the HOST's step. Safe. -/
  | reservedEncoding (why : DecodeError)
  /-- V7 (R58, U8): `ISSUE` of a command whose read region passes the top of the address space. Safe. -/
  | sourcePassesTop
  /-- V7 (R52, U8): `ISSUE` of a WRPIX whose source address breaks `SRC_ALIGN = 4`. Safe. -/
  | sourceMisaligned
  /-- V7 (R57, U8): the HOST changes a byte the active command reads. Safe. -/
  | sourceChanged
  /-- U17 (R7): any step with `BUS_MODE = parallel8`, for which the spec has no rule. Safe. -/
  | parallelBus
  deriving DecidableEq, Repr

/-- The whole state. The first block is R20's table; the second is what the spec keeps outside the block. -/
structure State where
  /-- `SLOT[0..15]` (R21). -/
  slots : Vector Word 16
  /-- Which slots a WRSLOT has written since reset (R21 "holds no value"). -/
  slotWritten : Vector Bool 16
  /-- `BUSY` (R22). -/
  busy : Bool
  /-- `LEN` (R23). -/
  len : Len
  /-- Whether a SETLEN has written `LEN` since reset (R23). -/
  lenWritten : Bool
  /-- `INFLIGHT` (R25); `[]` is its value "none". -/
  inflight : List Bool
  /-- `TX` (R26), oldest bit first. -/
  tx : List Bool
  /-- `DESC` (R27). -/
  desc : Desc
  /-- `PHASE`, the `pc` (R29). -/
  phase : Phase
  /-- `REM` (R30). -/
  rem : Word
  /-- `FULL` (R30). -/
  full : Word
  /-- `PTR` (R30). -/
  ptr : Word
  /-- `IDX` (R30). -/
  idx : Idx
  /-- `FW` (R30). -/
  fw : Word
  /-- The parameters of R7; no step writes them. -/
  params : Params
  /-- The source-buffer space (R50): the readable bytes, in canonical form. -/
  mem : List Host.Cell
  /-- The HOST's pending actions, next first. -/
  host : List HostAct
  /-- The 32-bit value the last status read returned to the HOST (R72, R94, R178). -/
  result : Word
  /-- The schedule (R32, U16): which agent is to step next, and so on. -/
  sched : List Agent
  /-- The MODEL's own counter of free choices (log entry 5). -/
  turn : Nat
  deriving DecidableEq, Repr

/-- The state after reset (R33, R210); log entries 1, 2, 3, 4, 5 and 6 name the values the spec does not give. -/
def State.reset : State where
  slots := Vector.replicate 16 0
  slotWritten := Vector.replicate 16 false
  busy := false
  len := 0
  lenWritten := false
  inflight := []
  tx := []
  desc := 0
  phase := .idle
  rem := 0
  full := 0
  ptr := 0
  idx := 0
  fw := 0
  params := { busMode := .serial, srcAlign := .one, rbcBase := 0 }
  mem := []
  host := []
  result := 0
  sched := []
  turn := 0

/-- What one operation answers. -/
abbrev Result := Host.Outcome State Fault Refusal

end Sys2Proof.Machine
end

