-- ==== Sys2Proof/Machine/Flags.lean ====
section
/-! DEFINITION. The block's one flag and its status outputs (spec/10_state.md R22, R28; spec/20_memory.md R54). -/

namespace Sys2Proof.Machine

/-- `SEQ_ACTIVE` (R28): derived, not stored. -/
def State.seqActive (s : State) : Bool := decide (s.phase ≠ .idle)

/-- The value a read of `STATUS` returns (R54, R94): bit 0 is `BUSY`, bits [31:1] read as 0. -/
def statusWord (s : State) : Word := (BitVec.ofBool s.busy).setWidth 32

/-- The value a read of the status output `SEQ_ACTIVE` returns (R178). -/
def activeWord (s : State) : Word := (BitVec.ofBool s.seqActive).setWidth 32

/-- Slots 0 to `n - 1` have all been written since reset. -/
def slotsHeld (s : State) (n : Nat) : Bool :=
  (List.range n).all (fun w => s.slotWritten[w]?.getD false)

/-- What START needs besides `BUSY = 0` (R90 condition 3, R93): `LEN` and every covered slot hold a value. -/
def startable (s : State) : Bool := s.lenWritten && slotsHeld s (s.len.toNat / 32 + 1)

/-- All pixels of every command so far are on the bus (R178). -/
def drained (s : State) : Bool := !s.seqActive && !s.busy

end Sys2Proof.Machine
end

