-- ==== Sys2Proof/Machine/Memory.lean ====
section
/-! DEFINITION. The source-buffer space (spec/20_memory.md R50 to R53): a list of readable bytes by address. An
unlisted address is not readable (log entry 4). -/

namespace Sys2Proof.Machine

/-- The readable bytes by address. -/
abbrev Memory := List Host.Cell

/-- The canonical form: addresses strictly rising, all of them inside the 32-bit space. An unlisted address reads as
nothing, so no entry can equal what it reads as. -/
abbrev Memory.wf (m : Memory) : Prop :=
  m.Pairwise (fun x y => x.1 < y.1) ∧ ∀ c ∈ m, c.1 < 2 ^ 32

/-- `MemRead(a, 1)` (R51); `none` where the byte is not readable. -/
def memRead : Memory → Nat → Option Byte
  | [], _ => none
  | (k, b) :: m, a => if k = a then some b else memRead m a

/-- Makes the byte at `a` readable with value `b`. -/
def memPut : Memory → Nat → Byte → Memory
  | [], a, b => [(a, b)]
  | (k, c) :: m, a, b =>
    if a < k then (a, b) :: (k, c) :: m
    else if a = k then (a, b) :: m
    else (k, c) :: memPut m a b

/-- Takes the byte at `a` out of the readable space. -/
def memDrop (m : Memory) (a : Nat) : Memory := m.filter (fun c => c.1 ≠ a)

/-- Writes a byte, or makes it unreadable. -/
def memSet (m : Memory) (a : Nat) : Option Byte → Memory
  | some b => memPut m a b
  | none => memDrop m a

/-- `MemRead(a, 1)` at a 32-bit address. -/
def readByte (m : Memory) (a : Word) : Option Byte := memRead m a.toNat

/-- `MemRead(a, 2)` (R51): the byte at the lower address is the less significant. -/
def readHalf (m : Memory) (a : Word) : Option Pixel :=
  match readByte m a, readByte m (a + 1) with
  | some b0, some b1 => some (b1 ++ b0)
  | _, _ => none

/-- `MemRead(a, 4)` (R51): little-endian, at any byte address (R52). -/
def readWord (m : Memory) (a : Word) : Option Word :=
  match readByte m a, readByte m (a + 1), readByte m (a + 2), readByte m (a + 3) with
  | some b0, some b1, some b2, some b3 => some (b3 ++ b2 ++ b1 ++ b0)
  | _, _, _, _ => none

/-- The bytes at `a`, `a + 1`, ..., `n` of them; an unreadable byte counts as 0 here, so a statement that uses this
says first that the bytes are readable. -/
def bytesAt (m : Memory) (a n : Nat) : List Byte :=
  (List.range n).map (fun k => (memRead m (a + k)).getD 0)

/-- Every byte of a region is readable (R57). -/
def readable (m : Memory) (a n : Nat) : Bool :=
  (List.range n).all (fun k => (memRead m (a + k)).isSome)

end Sys2Proof.Machine
end

