-- ==== Sys2Proof/Machine/Operands.lean ====
section
/-! DEFINITION. The pure functions of spec/41_pixel_packer.md (pixel_packer, byte_swap_unit, arithmetic of counts),
and the order in which a burst's bits go on the bus (spec/40_register_burst_controller.md R96). -/

namespace Sys2Proof.Machine

/-! ### pixel_packer -/

/-- `PACK2(p0, p1)` (R110): the earlier pixel in the low lane. -/
def pack2 (p0 p1 : Pixel) : Word := p1 ++ p0

/-- `LANE0(w)` (R110). -/
def lane0 (w : Word) : Pixel := w.extractLsb' 0 16

/-- `LANE1(w)` (R110). -/
def lane1 (w : Word) : Pixel := w.extractLsb' 16 16

/-! ### byte_swap_unit -/

/-- `BSWAP16(p)` (R111). -/
def bswap16 (p : Pixel) : Pixel := p.extractLsb' 0 8 ++ p.extractLsb' 8 8

/-- `FILLWORD(c)` (R112). -/
def fillWord (c : Pixel) : Word := pack2 (bswap16 c) (bswap16 c)

/-- `SWAPWORD(b0, b1, b2, b3)` (R113): bytes in increasing address order. -/
def swapWord (b0 b1 b2 b3 : Byte) : Word := b2 ++ b3 ++ b0 ++ b1

/-- `SWAPHALF(b0, b1)` (R114): the high lane is zero. -/
def swapHalf (b0 b1 : Byte) : Word := 0#8 ++ 0#8 ++ b0 ++ b1

/-- Byte `m` of a word, 0 to 3, byte 0 in bits [7:0]. -/
def byteOf (w : Word) (m : Nat) : Byte := w.extractLsb' (8 * m) 8

/-! ### counts -/

/-- The `rem` of `SPLIT(count)` (R117): `zext_32(count[4:0])`. -/
def splitRem (count : Word) : Word := (count.extractLsb' 0 5).setWidth 32

/-- The `full` of `SPLIT(count)` (R117): `count - rem`. -/
def splitFull (count : Word) : Word := count - splitRem count

/-- `WORDS(n)` (R118): the slot words that hold `n` pixels. -/
def wordsFor (n : Nat) : Nat := (n + 1) / 2

/-- `LENVAL(n)` (R119), as the sequencer hands it to SETLEN: the 32-bit value `16*n - 1`, of which SETLEN
takes `DATA[8:0]` (R91). -/
def lenVal (n : Word) : Len := (16 * n - 1).setWidth 9

/-! ### the order of bits on the bus -/

/-- Bit `n` of a burst (R96): slot `n div 32`; in the slot the byte in bits [7:0] first; in a byte the most
significant bit first. -/
def wireBit (x : Vector Word 16) (n : Nat) : Bool :=
  (x[n / 32]?.getD 0).getLsbD (8 * (n % 32 / 8) + 7 - n % 32 % 8)

/-- `PAYLOAD(LEN, x)` (R96): the `LEN + 1` bits of the burst. -/
def payload (len : Len) (x : Vector Word 16) : List Bool :=
  (List.range (len.toNat + 1)).map (wireBit x)

/-- The eight bits of a byte as the bus carries them, most significant first (R26, R96). -/
def byteBits (b : Byte) : List Bool :=
  [b.getLsbD 7, b.getLsbD 6, b.getLsbD 5, b.getLsbD 4, b.getLsbD 3, b.getLsbD 2, b.getLsbD 1, b.getLsbD 0]

/-- The bus history a list of bytes makes. -/
def bytesBits (bs : List Byte) : List Bool := bs.flatMap byteBits

/-- The byte whose bits, most significant first, are given. -/
def byteOfBits (b7 b6 b5 b4 b3 b2 b1 b0 : Bool) : Byte :=
  BitVec.ofBool b7 ++ BitVec.ofBool b6 ++ BitVec.ofBool b5 ++ BitVec.ofBool b4 ++
    BitVec.ofBool b3 ++ BitVec.ofBool b2 ++ BitVec.ofBool b1 ++ BitVec.ofBool b0

/-- `TXB` (R26): the bus history read as bytes; a last group of fewer than eight bits gives no byte. -/
def txBytes : List Bool → List Byte
  | b7 :: b6 :: b5 :: b4 :: b3 :: b2 :: b1 :: b0 :: rest => byteOfBits b7 b6 b5 b4 b3 b2 b1 b0 :: txBytes rest
  | _ => []

end Sys2Proof.Machine
end

