-- ==== Sys2Proof/WellFormed.lean ====
section
/-! DEFINITION. What an instruction as syntax must meet beyond the widths of its operands: the source region of
WRPIX and WRPIXS lies inside the address space (R58). -/

namespace Sys2Proof

/-- The number of source bytes a command reads (R53, R56): whole words for WRPIX, two bytes a pixel for WRPIXS,
none for anything else. -/
def Instr.bytesRead : Instr → Nat
  | .fill _ _ => 0
  | .wrpix _ count => 4 * Machine.wordsFor count.toNat
  | .wrpixs _ count => 2 * count.toNat
  | .rdbusy => 0
  | .start _ => 0
  | .setlen _ => 0
  | .wrslot _ _ => 0
  | .waitidle => 0

/-- The first source byte a command reads. -/
def Instr.source : Instr → Nat
  | .fill _ _ => 0
  | .wrpix src _ => src.toNat
  | .wrpixs src _ => src.toNat
  | .rdbusy => 0
  | .start _ => 0
  | .setlen _ => 0
  | .wrslot _ _ => 0
  | .waitidle => 0

/-- A command whose read region would pass the top of the address space is outside the contract (R58); a count of
zero reads nothing and looks at no address (R146, R161). -/
abbrev Instr.WellFormed (i : Instr) : Prop :=
  i.bytesRead = 0 ∨ i.source + i.bytesRead ≤ 2 ^ 32

end Sys2Proof
end

