-- ==== Sys2Proof/Machine/Ops.lean ====
section
/-! DEFINITION. The named operations over the state: the single-register updates, the micro-operations of
spec/40_register_burst_controller.md as SEQ and HOST share them, ISSUE, the BURST step and reset.
The block has no exception, trap or interrupt (R185, R191, R197), so there is no exception entry or return here: a
contract violation is a fault by name (R186). -/

namespace Sys2Proof.Machine

/-! ### Updates -/

/-- `LEN <- v`. -/
def State.writeLen (s : State) (v : Len) : State := { s with len := v, lenWritten := true }

/-- `SLOT[i] <- w`. -/
def State.writeSlot (s : State) (i : BitVec 4) (w : Word) : State :=
  { s with slots := s.slots.set i.toNat w i.isLt, slotWritten := s.slotWritten.set i.toNat true i.isLt }

/-- `INFLIGHT <- PAYLOAD(LEN, SLOT)`; `BUSY <- 1`. -/
def State.beginBurst (s : State) : State := { s with inflight := payload s.len s.slots, busy := true }

/-- `TX <- TX ++ INFLIGHT`; `INFLIGHT <- none`; `BUSY <- 0` (R97). -/
def State.endBurst (s : State) : State := { s with tx := s.tx ++ s.inflight, inflight := [], busy := false }

/-- `DESC <- D`; `pc <- P`. -/
def State.latch (s : State) (d : Desc) (p : Phase) : State := { s with desc := d, phase := p }

/-- `pc <- P`. -/
def State.setPhase (s : State) (p : Phase) : State := { s with phase := p }

/-- `REM <- v`. -/
def State.setRem (s : State) (v : Word) : State := { s with rem := v }

/-- `FULL <- v`. -/
def State.setFull (s : State) (v : Word) : State := { s with full := v }

/-- `PTR <- v`. -/
def State.setPtr (s : State) (v : Word) : State := { s with ptr := v }

/-- `IDX <- v`. -/
def State.setIdx (s : State) (v : Idx) : State := { s with idx := v }

/-- `FW <- v`. -/
def State.setFw (s : State) (v : Word) : State := { s with fw := v }

/-- The source-buffer space changes. -/
def State.setMem (s : State) (m : Memory) : State := { s with mem := m }

/-- The HOST's pending actions change. -/
def State.setHost (s : State) (h : List HostAct) : State := { s with host := h }

/-- A status read returns a value to the HOST. -/
def State.setResult (s : State) (v : Word) : State := { s with result := v }

/-- The schedule moves on. -/
def State.setSched (s : State) (l : List Agent) (turn : Nat) : State := { s with sched := l, turn := turn }

/-- Reset of the block (R210): every piece of R20's table at its reset value; what stands outside the block (the
parameters, the buffers, the host's actions, the value it last read, the schedule) is as before. -/
def State.resetBlock (s : State) : State :=
  { State.reset with
    params := s.params, mem := s.mem, host := s.host, result := s.result, sched := s.sched, turn := s.turn }

/-! ### Plumbing -/

/-- Goes on from a next state; a fault or a refusal stays. -/
def mapNext (o : Result) (f : State → State) : Result :=
  match o with
  | .next s => .next (f s)
  | .fault e => .fault e
  | .refused r => .refused r

/-- With `BUS_MODE = parallel8` the spec has no rule and the model refuses (R7, U17). -/
def onSerial (s : State) (o : Result) : Result :=
  match s.params.busMode with
  | .serial => o
  | .parallel8 => .refused .parallelBus

/-- Only SEQ may mutate the registers while a command is active (R34, R190). -/
def hostOwned (s : State) (o : Result) : Result :=
  if s.phase = .idle then o else .fault .hostMutationWhileActive

/-! ### The register space -/

/-- The byte offset of `SLOT[i]` in the register space (R54). -/
def slotOffset (i : BitVec 4) : BitVec 7 := 1#1 ++ i ++ 0#2

/-- The address of a register in the map the block is embedded in (R7, R54): no rule of the block uses it.
DESIGN CHOICE (log entry 26): the map is 32 bits wide and the sum is taken modulo 2^32. -/
def registerAddress (p : Params) (off : BitVec 7) : Word := p.rbcBase + off.setWidth 32

/-! ### Micro-operations (R91 to R93, R95), whoever issues them -/

/-- `SETLEN v` (R91). -/
def opSetLen (v : Len) (s : State) : Result :=
  if s.busy then .fault .mutateWhileBusy else .next (s.writeLen v)

/-- `WRSLOT i, w` (R92). -/
def opWrSlot (i : BitVec 4) (w : Word) (s : State) : Result :=
  if s.busy then .fault .mutateWhileBusy else .next (s.writeSlot i w)

/-- `WRSLOT(IDX, w)` as SEQ issues it, its index in the 5-bit `IDX`; a WRSLOT above slot 15 does not exist (R92). -/
def opWrSlotAt (i : Idx) (w : Word) (s : State) : Result :=
  if i.toNat < 16 then opWrSlot (i.setWidth 4) w s else .fault .slotIndexTooBig

/-- `START` (R93), its checks in the order the rule lists them. That it stops where `LEN` or a covered slot has not
been written since reset is the spec's own rule: `raise Violation(StartUnwritten)` (R93), "Model: fault" (R189). -/
def opStart (s : State) : Result :=
  if s.busy then .fault .startWhileBusy
  else if startable s then .next s.beginBurst
  else .fault .startUnwritten

/-- `RDBUSY` (R94): the value goes to the issuer. -/
def opRdBusy (s : State) : Result := .next (s.setResult (statusWord s))

/-! ### ISSUE (R175) -/

/-- `ISSUE` of a legal descriptor: it is latched whole and the sequencer enters the command. -/
def opIssue (d : Desc) (entry : Phase) (s : State) : Result :=
  if s.phase = .idle then .next (s.latch d entry) else .fault .issueWhileActive

/-- The descriptor of a command whose fields are known legal. -/
def commandDesc (i : Instr) : Desc :=
  match encode i with
  | .desc96 d => d
  | .uop40 _ => 0
  | .pseudo => 0

/-- WRPIX on a platform with `SRC_ALIGN = 4` needs `SRC[1:0] = 0` when it reads anything (R52, R194). -/
def alignedFor (p : Params) (src count : Word) : Bool :=
  match p.srcAlign with
  | .one => true
  | .four => decide (count = 0) || decide (src.extractLsb' 0 2 = 0)

/-! ### BURST (R97) -/

/-- The step of the BURST agent, enabled while `BUSY = 1`. -/
def opBurst (s : State) : Result := if s.busy then .next s.endBurst else .next s

/-! ### The source region of the active command (R56, R57) -/

/-- The first byte of the region. -/
def regionStart (d : Desc) : Nat := (descSrc d).toNat

/-- Its length in bytes: whole words for WRPIX, two bytes a pixel for WRPIXS, none for FILL. -/
def regionSize (d : Desc) : Nat :=
  if descKind d then
    if descSwap d then 2 * (descCount d).toNat else 4 * wordsFor (descCount d).toNat
  else 0

/-- The active command reads the byte at `a`. -/
def inRegion (s : State) (a : Nat) : Bool :=
  s.seqActive && decide (regionStart s.desc ≤ a) && decide (a < regionStart s.desc + regionSize s.desc)

end Sys2Proof.Machine
end

