-- ==== Sys2Proof/Machine/Commands.lean ====
section
/-! DEFINITION. The three commands as the HOST issues them (spec/45_host_command_port.md R175): the descriptor is
latched and the sequencer enters the command; the phases that carry it out are the sequencer's steps
(Machine/Fill.lean, Machine/Stream.lean, Machine/Swap.lean). -/

namespace Sys2Proof.Machine

/-- `FILL color, count` (R125, R175). -/
def execFill (color : Pixel) (count : Word) (s : State) : Result :=
  onSerial s (opIssue (commandDesc (.fill color count)) .fEntry s)

/-- `WRPIX src, count` (R145, R175): V5 first; then the source region must be inside the contract (R52, R58). -/
def execWrpix (src count : Word) (s : State) : Result :=
  onSerial s <|
    if s.phase ≠ .idle then .fault .issueWhileActive
    else if alignedFor s.params src count = false then .refused .sourceMisaligned
    else if (Instr.wrpix src count).WellFormed then opIssue (commandDesc (.wrpix src count)) .wEntry s
    else .refused .sourcePassesTop

/-- `WRPIXS src, count` (R160, R175): V5 first; then the source region must be inside the contract (R58). -/
def execWrpixs (src count : Word) (s : State) : Result :=
  onSerial s <|
    if s.phase ≠ .idle then .fault .issueWhileActive
    else if (Instr.wrpixs src count).WellFormed then opIssue (commandDesc (.wrpixs src count)) .sEntry s
    else .refused .sourcePassesTop

end Sys2Proof.Machine
end

