-- ==== Sys2Proof/Machine/MicroOps.lean ====
section
/-! DEFINITION. The five micro-operations as the HOST issues them (spec/40_register_burst_controller.md, R100). -/

namespace Sys2Proof.Machine

/-- `SETLEN v` (R91): V4 while a command is active, V2 while busy. -/
def execSetlen (v : Len) (s : State) : Result := onSerial s (hostOwned s (opSetLen v s))

/-- `WRSLOT i, w` (R92): V4 while a command is active, V2 while busy. -/
def execWrslot (i : BitVec 4) (w : Word) (s : State) : Result := onSerial s (hostOwned s (opWrSlot i w s))

/-- A write of the START register (R93): with `DATA[0] = 1` it starts a burst (V4, V1 or V3 where the contract is
broken); with `DATA[0] = 0` it does nothing, whatever `BUSY` is (R77, V-X10). -/
def execStart (go : Bool) (s : State) : Result :=
  onSerial s (if go then hostOwned s (opStart s) else .next s)

/-- `RDBUSY` (R94): legal at any time. -/
def execRdbusy (s : State) : Result := onSerial s (opRdBusy s)

/-- `WAITIDLE` (R95): passes and changes nothing while `BUSY = 0`; while `BUSY = 1` the HOST holds at it, the
operation staying its next action. -/
def execWaitidle (s : State) : Result :=
  onSerial s (if s.busy then .next (s.setHost (.op .pseudo :: s.host)) else .next s)

end Sys2Proof.Machine
end

