-- ==== Sys2Proof/Machine/Dispatch.lean ====
section
/-! DEFINITION. One arm per constructor of `Instr`: what the instruction does when the HOST hands it to its port. -/

namespace Sys2Proof.Machine

def exec (i : Instr) (s : State) : Host.Outcome State Fault Refusal :=
  match i with
  | .fill color count => Sys2Proof.Machine.execFill color count s
  | .wrpix src count => Sys2Proof.Machine.execWrpix src count s
  | .wrpixs src count => Sys2Proof.Machine.execWrpixs src count s
  | .rdbusy => Sys2Proof.Machine.execRdbusy s
  | .start go => Sys2Proof.Machine.execStart go s
  | .setlen v => Sys2Proof.Machine.execSetlen v s
  | .wrslot n w => Sys2Proof.Machine.execWrslot n w s
  | .waitidle => Sys2Proof.Machine.execWaitidle s

end Sys2Proof.Machine
end

