-- ==== Sys2Proof/Machine/Phases.lean ====
section
/-! DEFINITION. The four kinds of row the phase tables are made of (spec/00_scope.md R10): a wait, a length, a slot
and a start phase. One row is one atomic step of SEQ. -/

namespace Sys2Proof.Machine

/-- A `WAITIDLE` row (R95): while `BUSY = 1` SEQ holds at it. -/
def waitRow (after : Phase) (s : State) : Result :=
  if s.busy then .next s else .next (s.setPhase after)

/-- A `SETLEN(v)` row of FILL. -/
def lenRow (v : Len) (after : Phase) (s : State) : Result :=
  mapNext (opSetLen v s) (fun t => t.setPhase after)

/-- A `SETLEN(v)`; `IDX <- 0` row of WRPIX and WRPIXS. -/
def lenRow0 (v : Len) (after : Phase) (s : State) : Result :=
  mapNext (opSetLen v s) (fun t => (t.setIdx 0).setPhase after)

/-- A `WRSLOT(IDX, w)`; `IDX <- IDX + 1` row: it stays at `self` while the new `IDX` is below `limit`. -/
def slotRow (w : Word) (limit : Nat) (self after : Phase) (s : State) : Result :=
  mapNext (opWrSlotAt s.idx w s)
    (fun t => (t.setIdx (s.idx + 1)).setPhase (if (s.idx + 1).toNat < limit then self else after))

/-- A slot row whose word is read from the source buffer: `PTR` moves on by `size`; an unreadable byte leaves SEQ
stuck (R194, U7). -/
def loadRow (w : Option Word) (size : Word) (limit : Nat) (self after : Phase) (s : State) : Result :=
  match w with
  | none => .fault .sourceUnreadable
  | some w => mapNext (slotRow w limit self after s) (fun t => t.setPtr (s.ptr + size))

/-- A `START` row; `upd` is the rest of its action and the next phase. -/
def startRow (upd : State → State) (s : State) : Result := mapNext (opStart s) upd

end Sys2Proof.Machine
end

