-- ==== Sys2Proof/Machine/Fill.lean ====
section
/-! DEFINITION. The phase table of FILL (spec/42_solid_fill_scheduler.md R131), one definition per row that is not
just a row kind of Machine/Phases.lean. -/

namespace Sys2Proof.Machine

/-- `F_ENTRY`. -/
def fillEntry (s : State) : Result :=
  let count := descCount s.desc
  let r := splitRem count
  let t := (((s.setRem r).setFull (splitFull count)).setFw (fillWord (descColor s.desc))).setIdx 0
  .next (t.setPhase (if count = 0 then .idle else if r ≠ 0 then .fRwait else .fPwait))

/-- `F_RWAIT`. -/
def fillRwait (s : State) : Result := waitRow .fRlen s

/-- `F_RLEN`. -/
def fillRlen (s : State) : Result := lenRow (lenVal s.rem) .fRslot s

/-- `F_RSLOT`. -/
def fillRslot (s : State) : Result := slotRow s.fw (wordsFor s.rem.toNat) .fRslot .fRstart s

/-- `F_RSTART`. -/
def fillRstart (s : State) : Result :=
  startRow (fun t => t.setPhase (if s.full = 0 then .idle else .fPwait)) s

/-- `F_PWAIT`. -/
def fillPwait (s : State) : Result := waitRow (if s.idx.toNat < 16 then .fPslot else .fLwait) s

/-- `F_PSLOT`. -/
def fillPslot (s : State) : Result := slotRow s.fw 16 .fPslot .fLwait s

/-- `F_LWAIT`. -/
def fillLwait (s : State) : Result := waitRow .fLlen s

/-- `F_LLEN`. -/
def fillLlen (s : State) : Result := lenRow Config.lenFull .fLstart s

/-- `F_LSTART`. -/
def fillLstart (s : State) : Result :=
  startRow (fun t => (t.setFull (s.full - 32)).setPhase (if s.full - 32 ≠ 0 then .fLwait else .idle)) s

end Sys2Proof.Machine
end

