-- ==== Sys2Proof/Machine/Stream.lean ====
section
/-! DEFINITION. The phase table of WRPIX (spec/43_pixel_stream_writer.md R150). -/

namespace Sys2Proof.Machine

/-- Where WRPIX goes on with `rem` pixels not yet loaded into a burst (rows `W_ENTRY` and `W_FSTART`). -/
def streamSelect (rem : Word) : Phase :=
  if 32 ≤ rem.toNat then .wFwait else if rem = 0 then .idle else .wTwait

/-- `W_ENTRY`. -/
def streamEntry (s : State) : Result :=
  let count := descCount s.desc
  .next ((((s.setRem count).setPtr (descSrc s.desc)).setIdx 0).setPhase (streamSelect count))

/-- `W_FWAIT`. -/
def streamFwait (s : State) : Result := waitRow .wFlen s

/-- `W_FLEN`. -/
def streamFlen (s : State) : Result := lenRow0 Config.lenFull .wFslot s

/-- `W_FSLOT`. -/
def streamFslot (s : State) : Result := loadRow (readWord s.mem s.ptr) 4 16 .wFslot .wFstart s

/-- `W_FSTART`. -/
def streamFstart (s : State) : Result :=
  startRow (fun t => (t.setRem (s.rem - 32)).setPhase (streamSelect (s.rem - 32))) s

/-- `W_TWAIT`. -/
def streamTwait (s : State) : Result := waitRow .wTlen s

/-- `W_TLEN`. -/
def streamTlen (s : State) : Result := lenRow0 (lenVal s.rem) .wTslot s

/-- `W_TSLOT`. -/
def streamTslot (s : State) : Result :=
  loadRow (readWord s.mem s.ptr) 4 (wordsFor s.rem.toNat) .wTslot .wTstart s

/-- `W_TSTART`. -/
def streamTstart (s : State) : Result := startRow (fun t => t.setPhase .idle) s

end Sys2Proof.Machine
end

