-- ==== Sys2Proof/Machine/Swap.lean ====
section
/-! DEFINITION. The phase table of WRPIXS (spec/44_byte_swap_adapter.md R167), with NEXTWORD and NEXTHALF (R160). -/

namespace Sys2Proof.Machine

/-- The word of `NEXTWORD()` (R160): four byte reads; `PTR` moves on by 4 in the slot row. -/
def nextWord (s : State) : Option Word :=
  match readByte s.mem s.ptr, readByte s.mem (s.ptr + 1), readByte s.mem (s.ptr + 2), readByte s.mem (s.ptr + 3) with
  | some b0, some b1, some b2, some b3 => some (swapWord b0 b1 b2 b3)
  | _, _, _, _ => none

/-- The word of `NEXTHALF()` (R160): two byte reads; `PTR` moves on by 2 in the slot row. -/
def nextHalf (s : State) : Option Word :=
  match readByte s.mem s.ptr, readByte s.mem (s.ptr + 1) with
  | some b0, some b1 => some (swapHalf b0 b1)
  | _, _ => none

/-- "Tier select" (R167). -/
def tierSelect (rem : Word) : Phase :=
  if 32 ≤ rem.toNat then .sAwait
  else if 16 ≤ rem.toNat then .sBwait
  else if rem = 0 then .idle
  else .sCwait

/-- `S_ENTRY`. -/
def swapEntry (s : State) : Result :=
  let count := descCount s.desc
  .next ((((s.setRem count).setPtr (descSrc s.desc)).setIdx 0).setPhase (tierSelect count))

/-- `S_AWAIT`. -/
def swapAwait (s : State) : Result := waitRow .sAlen s

/-- `S_ALEN`. -/
def swapAlen (s : State) : Result := lenRow0 Config.lenFull .sAslot s

/-- `S_ASLOT`. -/
def swapAslot (s : State) : Result := loadRow (nextWord s) 4 16 .sAslot .sAstart s

/-- `S_ASTART`. -/
def swapAstart (s : State) : Result :=
  startRow (fun t => (t.setRem (s.rem - 32)).setPhase (tierSelect (s.rem - 32))) s

/-- `S_BWAIT`. -/
def swapBwait (s : State) : Result := waitRow .sBlen s

/-- `S_BLEN`. -/
def swapBlen (s : State) : Result := lenRow0 Config.lenHalf .sBslot s

/-- `S_BSLOT`. -/
def swapBslot (s : State) : Result := loadRow (nextWord s) 4 8 .sBslot .sBstart s

/-- `S_BSTART`. -/
def swapBstart (s : State) : Result :=
  startRow (fun t => (t.setRem (s.rem - 16)).setPhase (if s.rem - 16 ≠ 0 then .sCwait else .idle)) s

/-- `S_CWAIT`. -/
def swapCwait (s : State) : Result := waitRow .sClen s

/-- `S_CLEN`. -/
def swapClen (s : State) : Result := lenRow0 (lenVal s.rem) .sCslot s

/-- The slot step of `S_CSLOT` is that of an odd count's last pixel: `IDX = WORDS(REM) - 1` and `REM[0] = 1`. -/
def lastOdd (s : State) : Bool :=
  decide (s.idx.toNat + 1 = wordsFor s.rem.toNat) && s.rem.getLsbD 0

/-- `S_CSLOT`. -/
def swapCslot (s : State) : Result :=
  if lastOdd s then loadRow (nextHalf s) 2 (wordsFor s.rem.toNat) .sCslot .sCstart s
  else loadRow (nextWord s) 4 (wordsFor s.rem.toNat) .sCslot .sCstart s

/-- `S_CSTART`. -/
def swapCstart (s : State) : Result := startRow (fun t => t.setPhase .idle) s

end Sys2Proof.Machine
end

