-- ==== Sys2Proof/Machine/Sequencer.lean ====
section
/-! DEFINITION. The SEQ agent: one phase of a phase table is one step (spec/00_scope.md R10, R29). -/

namespace Sys2Proof.Machine

/-- The phase is a `WAITIDLE` row. -/
def Phase.isWait : Phase → Bool
  | .fRwait | .fPwait | .fLwait | .wFwait | .wTwait | .sAwait | .sBwait | .sCwait => true
  | _ => false

/-- SEQ has a step (R10): a command is active, and a WAITIDLE row only while `BUSY = 0`. -/
def seqEnabled (s : State) : Bool := s.seqActive && !(s.phase.isWait && s.busy)

/-- One step of SEQ. -/
def seqStep (s : State) : Result :=
  match s.phase with
  | .idle => .next s
  | .fEntry => fillEntry s
  | .fRwait => fillRwait s
  | .fRlen => fillRlen s
  | .fRslot => fillRslot s
  | .fRstart => fillRstart s
  | .fPwait => fillPwait s
  | .fPslot => fillPslot s
  | .fLwait => fillLwait s
  | .fLlen => fillLlen s
  | .fLstart => fillLstart s
  | .wEntry => streamEntry s
  | .wFwait => streamFwait s
  | .wFlen => streamFlen s
  | .wFslot => streamFslot s
  | .wFstart => streamFstart s
  | .wTwait => streamTwait s
  | .wTlen => streamTlen s
  | .wTslot => streamTslot s
  | .wTstart => streamTstart s
  | .sEntry => swapEntry s
  | .sAwait => swapAwait s
  | .sAlen => swapAlen s
  | .sAslot => swapAslot s
  | .sAstart => swapAstart s
  | .sBwait => swapBwait s
  | .sBlen => swapBlen s
  | .sBslot => swapBslot s
  | .sBstart => swapBstart s
  | .sCwait => swapCwait s
  | .sClen => swapClen s
  | .sCslot => swapCslot s
  | .sCstart => swapCstart s

end Sys2Proof.Machine
end

