-- ==== Sys2Proof/Machine/Agents.lean ====
section
/-! DEFINITION. The three agents and which of them steps (spec/00_scope.md R10; spec/45_host_command_port.md R175,
R178, R180). -/

namespace Sys2Proof.Machine

/-! ### HOST -/

/-- A descriptor or register access with no meaning (R175, R193): an `ISSUE` looks at `pc` first. -/
def rejectWord (p : PortWord) (e : DecodeError) (s : State) : Result :=
  match p with
  | .desc96 _ => if s.phase = .idle then .refused (.reservedEncoding e) else .fault .issueWhileActive
  | .uop40 _ => .refused (.reservedEncoding e)
  | .pseudo => .refused (.reservedEncoding e)

/-- The HOST hands a word to its port. -/
def hostOp (p : PortWord) (s : State) : Result :=
  match decodePort p with
  | .ok i => exec i s
  | .error e => rejectWord p e s

/-- The HOST changes a byte of the source-buffer space (R57, R180): never one the active command reads. -/
def hostPoke (a : Word) (b : Option Byte) (s : State) : Result :=
  if inRegion s a.toNat && decide (readByte s.mem a ≠ b) then .refused .sourceChanged
  else .next (s.setMem (memSet s.mem a.toNat b))

/-- The HOST holds at an action until its condition comes true (R95, R178). -/
def hostHolds (act : HostAct) (s : State) : Bool :=
  match act with
  | .op .pseudo => s.busy
  | .op (.desc96 _) => false
  | .op (.uop40 _) => false
  | .awaitDone => s.seqActive
  | .readActive => false
  | .poke _ _ => false
  | .reset => false

/-- HOST has a step: an action is pending and does not hold. -/
def hostEnabled (s : State) : Bool :=
  match s.host with
  | [] => false
  | act :: _ => !hostHolds act s

/-- One action of the HOST. -/
def hostAct (act : HostAct) (s : State) : Result :=
  match act with
  | .op p => hostOp p s
  | .awaitDone => .next s
  | .readActive => .next (s.setResult (activeWord s))
  | .poke a b => hostPoke a b s
  | .reset => .next s.resetBlock

/-- One step of HOST: its next action, taken off the list. -/
def hostStep (s : State) : Result :=
  match s.host with
  | [] => .next s
  | act :: rest => hostAct act (s.setHost rest)

/-! ### Which agent steps -/

/-- An agent has a step (R10). -/
def enabled (s : State) : Agent → Bool
  | .host => hostEnabled s
  | .seq => seqEnabled s
  | .burst => s.busy

/-- The agents that have a step. -/
def enabledAgents (s : State) : List Agent := [Agent.host, Agent.seq, Agent.burst].filter (enabled s)

/-- The first agent of the schedule that has a step, and the rest of the schedule. -/
def nextScheduled (en : Agent → Bool) : List Agent → Option (Agent × List Agent)
  | [] => none
  | a :: rest => if en a then some (a, rest) else nextScheduled en rest

/-- Which of several enabled agents steps, and the state with the schedule moved on: the first enabled agent the
schedule names, or, where it names none, the one the free value picks (log entry 5). -/
def resolveChoice (es : List Agent) (s : State) : Agent × State :=
  match nextScheduled (enabled s) s.sched with
  | some (b, rest) => (b, s.setSched rest s.turn)
  | none => (es.getD (Config.freeAgent s.turn % es.length) .host, s.setSched [] (s.turn + 1))

/-- The agent that steps. The schedule is asked only where more than one agent has a step. -/
def chooseAgent (s : State) : Option (Agent × State) :=
  match enabledAgents s with
  | [] => none
  | [a] => some (a, s)
  | a :: b :: more => some (resolveChoice (a :: b :: more) s)

/-- One step of one agent. -/
def agentStep (a : Agent) (s : State) : Result :=
  match a with
  | .host => hostStep s
  | .seq => seqStep s
  | .burst => opBurst s

/-- One step of the machine: one enabled agent takes one atomic step; where none is enabled nothing happens (R210
"it does nothing until the host acts"). -/
def machineStep (s : State) : Result :=
  onSerial s <|
    match chooseAgent s with
    | none => .next s
    | some (a, t) => agentStep a t

end Sys2Proof.Machine
end

