-- ==== Sys2Proof/Machine/Step.lean ====
section
/-! DEFINITION. The step of the machine, and where an instruction stands that the next step is to run. -/

namespace Sys2Proof.Machine

/-- One step (R10). -/
def step (s : State) : Host.Outcome State Fault Refusal := machineStep s

/-- `s` with the instruction of a table row as the HOST's next action and, where another agent has a step too, HOST
as the one to step next (log entry 7); a width the table does not have changes nothing. -/
def State.withFetchWord (s : State) (nbits w : Nat) : State :=
  match tableWord nbits w with
  | none => s
  | some p =>
    let t := s.setHost (.op p :: s.host)
    if enabledAgents t = [.host] then t else t.setSched (.host :: t.sched) t.turn

end Sys2Proof.Machine
end

