-- ==== Sys2Proof/Safety.lean ====
section
/-! DEFINITION. What claims about a run speak of: what a step answers, the invariant of the machine, quiet states,
and what each command is to send and to leave behind. -/

namespace Sys2Proof.Machine

/-! ### What an operation answers -/

/-- The next state, if there is one. -/
def nextOf : Result → Option State
  | .next s => some s
  | .fault _ => none
  | .refused _ => none

/-- The fault, if there is one. -/
def faultOf : Result → Option Fault
  | .next _ => none
  | .fault e => some e
  | .refused _ => none

/-- The refusal, if there is one. -/
def refusalOf : Result → Option Refusal
  | .next _ => none
  | .fault _ => none
  | .refused r => some r

/-! ### The invariant -/

/-- The bus side (R22, R25): a burst is in flight exactly while `BUSY = 1`, and it has 1 to 512 bits. -/
abbrev busInv (s : State) : Prop := (s.busy = true ↔ s.inflight ≠ []) ∧ s.inflight.length ≤ 512

/-- SEQ is between the first and the last WRSLOT of a burst set-up: idle, the length written, the slots below `IDX`
loaded. -/
abbrev loading (s : State) (len : Len) (limit : Nat) : Prop :=
  s.busy = false ∧ s.lenWritten = true ∧ s.len = len ∧ s.idx.toNat < limit ∧ slotsHeld s s.idx.toNat = true

/-- SEQ is at the START of a burst of `limit` slot words. -/
abbrev loaded (s : State) (len : Len) (limit : Nat) : Prop :=
  s.busy = false ∧ s.lenWritten = true ∧ s.len = len ∧ slotsHeld s limit = true

/-- `REM` is from `lo` to `hi`. -/
abbrev remIn (s : State) (lo hi : Nat) : Prop := lo ≤ s.rem.toNat ∧ s.rem.toNat ≤ hi

/-- `FULL` is a multiple of 32 (R117). -/
abbrev fullWindows (s : State) : Prop := 32 ∣ s.full.toNat

/-- The latched command is a Sequence whose source region lies inside the address space (R58). -/
abbrev sequenceDesc (s : State) (swap : Bool) : Prop :=
  descKind s.desc = true ∧ descSwap s.desc = swap ∧ regionStart s.desc + regionSize s.desc ≤ 2 ^ 32

/-- `PTR` stands after the pixels already loaded into bursts, whole bursts of 16 or 32, and `k` words of the burst
being loaded (R65). -/
abbrev pointsAfter (s : State) (k : Nat) : Prop :=
  s.rem.toNat ≤ (descCount s.desc).toNat ∧ 16 ∣ (descCount s.desc).toNat - s.rem.toNat ∧
    s.ptr = descSrc s.desc + 2 * (descCount s.desc - s.rem) + 4 * BitVec.ofNat 32 k

/-- What holds at a phase: the contract of R90 as the phase tables keep it (R131, R150, R167). -/
def phaseInvAt (s : State) : Phase → Prop
  | .idle => True
  | .fEntry => descKind s.desc = false
  | .fRwait => remIn s 1 31 ∧ s.idx = 0 ∧ fullWindows s
  | .fRlen => remIn s 1 31 ∧ s.idx = 0 ∧ fullWindows s ∧ s.busy = false
  | .fRslot => remIn s 1 31 ∧ fullWindows s ∧ loading s (lenVal s.rem) (wordsFor s.rem.toNat)
  | .fRstart =>
    remIn s 1 31 ∧ fullWindows s ∧ s.idx.toNat = wordsFor s.rem.toNat ∧ loaded s (lenVal s.rem) (wordsFor s.rem.toNat)
  | .fPwait =>
    remIn s 0 31 ∧ fullWindows s ∧ s.full ≠ 0 ∧ s.idx.toNat = wordsFor s.rem.toNat ∧ slotsHeld s s.idx.toNat = true
  | .fPslot => fullWindows s ∧ s.full ≠ 0 ∧ s.busy = false ∧ s.idx.toNat < 16 ∧ slotsHeld s s.idx.toNat = true
  | .fLwait => fullWindows s ∧ s.full ≠ 0 ∧ slotsHeld s 16 = true
  | .fLlen => fullWindows s ∧ s.full ≠ 0 ∧ slotsHeld s 16 = true ∧ s.busy = false
  | .fLstart => fullWindows s ∧ s.full ≠ 0 ∧ loaded s Config.lenFull 16
  | .wEntry => sequenceDesc s false
  | .wFwait => sequenceDesc s false ∧ 32 ≤ s.rem.toNat ∧ pointsAfter s 0
  | .wFlen => sequenceDesc s false ∧ 32 ≤ s.rem.toNat ∧ pointsAfter s 0 ∧ s.busy = false
  | .wFslot => sequenceDesc s false ∧ 32 ≤ s.rem.toNat ∧ pointsAfter s s.idx.toNat ∧ loading s Config.lenFull 16
  | .wFstart => sequenceDesc s false ∧ 32 ≤ s.rem.toNat ∧ pointsAfter s 16 ∧ loaded s Config.lenFull 16
  | .wTwait => sequenceDesc s false ∧ remIn s 1 31 ∧ pointsAfter s 0
  | .wTlen => sequenceDesc s false ∧ remIn s 1 31 ∧ pointsAfter s 0 ∧ s.busy = false
  | .wTslot =>
    sequenceDesc s false ∧ remIn s 1 31 ∧ pointsAfter s s.idx.toNat ∧ loading s (lenVal s.rem) (wordsFor s.rem.toNat)
  | .wTstart => sequenceDesc s false ∧ remIn s 1 31 ∧ loaded s (lenVal s.rem) (wordsFor s.rem.toNat)
  | .sEntry => sequenceDesc s true
  | .sAwait => sequenceDesc s true ∧ 32 ≤ s.rem.toNat ∧ pointsAfter s 0
  | .sAlen => sequenceDesc s true ∧ 32 ≤ s.rem.toNat ∧ pointsAfter s 0 ∧ s.busy = false
  | .sAslot => sequenceDesc s true ∧ 32 ≤ s.rem.toNat ∧ pointsAfter s s.idx.toNat ∧ loading s Config.lenFull 16
  | .sAstart => sequenceDesc s true ∧ 32 ≤ s.rem.toNat ∧ pointsAfter s 16 ∧ loaded s Config.lenFull 16
  | .sBwait => sequenceDesc s true ∧ remIn s 16 31 ∧ pointsAfter s 0
  | .sBlen => sequenceDesc s true ∧ remIn s 16 31 ∧ pointsAfter s 0 ∧ s.busy = false
  | .sBslot => sequenceDesc s true ∧ remIn s 16 31 ∧ pointsAfter s s.idx.toNat ∧ loading s Config.lenHalf 8
  | .sBstart => sequenceDesc s true ∧ remIn s 16 31 ∧ pointsAfter s 8 ∧ loaded s Config.lenHalf 8
  | .sCwait => sequenceDesc s true ∧ remIn s 1 15 ∧ pointsAfter s 0
  | .sClen => sequenceDesc s true ∧ remIn s 1 15 ∧ pointsAfter s 0 ∧ s.busy = false
  | .sCslot =>
    sequenceDesc s true ∧ remIn s 1 15 ∧ pointsAfter s s.idx.toNat ∧ loading s (lenVal s.rem) (wordsFor s.rem.toNat)
  | .sCstart => sequenceDesc s true ∧ remIn s 1 15 ∧ loaded s (lenVal s.rem) (wordsFor s.rem.toNat)

/-- The invariant of the machine: memory in canonical form, the bus side, and the contract at the current phase. -/
def BlockInv (s : State) : Prop := Memory.wf s.mem ∧ busInv s ∧ phaseInvAt s s.phase

/-! ### Runs -/

/-- No command is active, no burst is in flight, the HOST wants nothing, and the bus is serial: the state between two
uses of the block, where a run is over (R11). -/
abbrev quiet (s : State) : Prop :=
  s.phase = .idle ∧ s.busy = false ∧ s.host = [] ∧ s.params.busMode = .serial

/-- Where a command may be issued (R175): no command is active and the bus is serial; a burst may be in flight. -/
abbrev standing (s : State) : Prop := s.phase = .idle ∧ s.params.busMode = .serial

/-- The bus history once the burst in flight, if there is one, has completed (R97). -/
def sentSoFar (s : State) : List Bool := if s.busy then s.tx ++ s.inflight else s.tx

/-- `s` with the HOST about to hand over one word and no more. -/
def asking (s : State) (p : PortWord) : State := s.setHost [.op p]

/-- `k` steps of the machine: the state they end in, and the `LEN` of every burst started on the way, in order. -/
def runLog : Nat → State → Option (State × List Len)
  | 0, s => some (s, [])
  | k + 1, s =>
    match nextOf (step s) with
    | none => none
    | some t =>
      match runLog k t with
      | none => none
      | some (u, lens) => some (u, if s.busy = false ∧ t.busy = true then t.len :: lens else lens)

/-! ### What a command is to send -/

/-- The two bytes FILL sends for one pixel (R133): high byte first. -/
def pixelBytes (c : Pixel) : List Byte := [c.extractLsb' 8 8, c.extractLsb' 0 8]

/-- The bytes of a FILL (R133). -/
def fillBytes (c : Pixel) (n : Nat) : List Byte := (List.replicate n (pixelBytes c)).flatten

/-- The bytes of a WRPIXS (R168): of each pixel the byte at the higher address first. -/
def swappedBytes (m : Memory) (a n : Nat) : List Byte :=
  (List.range n).flatMap fun k => [(memRead m (a + 2 * k + 1)).getD 0, (memRead m (a + 2 * k)).getD 0]

/-- The `LEN` of a burst of `n` pixels (R119). -/
def burstLen (n : Nat) : Len := BitVec.ofNat 9 (16 * n - 1)

/-- The bursts of FILL (R132): the remainder first. -/
def fillBursts (n : Nat) : List Len :=
  (if n % 32 = 0 then [] else [burstLen (n % 32)]) ++ List.replicate (n / 32) 511

/-- The bursts of WRPIX (R151): full windows first. -/
def streamBursts (n : Nat) : List Len :=
  List.replicate (n / 32) 511 ++ (if n % 32 = 0 then [] else [burstLen (n % 32)])

/-- The bursts of WRPIXS (R165): full bursts, the half burst, the tail. -/
def swapBursts (n : Nat) : List Len :=
  List.replicate (n / 32) 511 ++ (if 16 ≤ n % 32 then [255] else []) ++
    (if n % 16 = 0 then [] else [burstLen (n % 16)])

/-! ### What a command is to leave in the slots -/

/-- Where in the source region of a WRPIX of `n` pixels the word stands that was last written to slot `j` (R152): the
last window's where it covers the slot, else that of the full window before it; `none` where WRPIX writes no such
slot. -/
def streamSlotOffset (n j : Nat) : Option Nat :=
  if j < wordsFor (n % 32) then some (64 * (n / 32) + 4 * j)
  else if n / 32 = 0 then none
  else some (64 * (n / 32 - 1) + 4 * j)

/-- The same for WRPIXS (R165, R169): the tail's, else the half burst's, else the last full burst's. -/
def swapSlotOffset (n j : Nat) : Option Nat :=
  if j < wordsFor (n % 16) then some (32 * (n / 16) + 4 * j)
  else if 16 ≤ n % 32 ∧ j < 8 then some (64 * (n / 32) + 4 * j)
  else if n / 32 = 0 then none
  else some (64 * (n / 32 - 1) + 4 * j)

/-- The slots after a WRPIX (R152): each holds the two pixels that stand at its place in the source, or what it held
before. Nothing is said of the lane of a pixel past the last (U9, log entry 17). -/
def streamLeaves (s t : State) (src n : Word) : Prop :=
  ∀ j, (h : j < 16) →
    match streamSlotOffset n.toNat j with
    | none => t.slots[j] = s.slots[j]
    | some o =>
      readHalf s.mem (src + BitVec.ofNat 32 o) = some (lane0 t.slots[j]) ∧
        (o + 2 < 2 * n.toNat → readHalf s.mem (src + BitVec.ofNat 32 (o + 2)) = some (lane1 t.slots[j]))

/-- The slots after a WRPIXS (R169): each holds the two pixels that stand at its place in the source, their bytes
exchanged, or what it held before; the lane of a pixel past the last is zero. -/
def swapLeaves (s t : State) (src n : Word) : Prop :=
  ∀ j, (h : j < 16) →
    match swapSlotOffset n.toNat j with
    | none => t.slots[j] = s.slots[j]
    | some o =>
      (readHalf s.mem (src + BitVec.ofNat 32 o)).map bswap16 = some (lane0 t.slots[j]) ∧
        if o + 2 < 2 * n.toNat then
          (readHalf s.mem (src + BitVec.ofNat 32 (o + 2))).map bswap16 = some (lane1 t.slots[j])
        else lane1 t.slots[j] = 0

/-! ### Classes of phases and instructions -/

/-- The entry phase of a command (R29, R175). -/
def Phase.isEntry : Phase → Bool
  | .fEntry | .wEntry | .sEntry => true
  | _ => false

/-- A row of a phase table that issues a START. -/
def Phase.isStart : Phase → Bool
  | .fRstart | .fLstart | .wFstart | .wTstart | .sAstart | .sBstart | .sCstart => true
  | _ => false

/-- A row of a phase table that issues a SETLEN. -/
def Phase.isLength : Phase → Bool
  | .fRlen | .fLlen | .wFlen | .wTlen | .sAlen | .sBlen | .sClen => true
  | _ => false

/-- A row of a phase table that issues a WRSLOT. -/
def Phase.isSlot : Phase → Bool
  | .fRslot | .fPslot | .wFslot | .wTslot | .sAslot | .sBslot | .sCslot => true
  | _ => false

/-- A row that reads the source buffer (R150, R167). -/
def Phase.isLoad : Phase → Bool
  | .wFslot | .wTslot | .sAslot | .sBslot | .sCslot => true
  | _ => false

/-- A command, as against a micro-operation (R70). -/
def isCommand : Instr → Bool
  | .fill _ _ | .wrpix _ _ | .wrpixs _ _ => true
  | .rdbusy | .start _ | .setlen _ | .wrslot _ _ | .waitidle => false

end Sys2Proof.Machine
end

