-- ==== Sys2Proof/Certificates/Slice0/Obligations.lean ====
section
/-! DEFINITION. The statements about the model, each with the rules of spec/ it formalises. -/

open Sys2Proof Sys2Proof.Machine

/-! ### Encoding -/

/-- R71, R72, R74, R75 (derived): decoding the word of any instruction gives it back, every operand at every value. -/
def Obligations.DecodeEncodeRoundTrip : Prop := ∀ i : Instr, decodePort (encode i) = .ok i

/-- R71 (derived): a legal descriptor has no bit its command does not determine, so the latched descriptor is the
issued one. -/
def Obligations.EncodeOfDecodedDescriptor : Prop :=
  ∀ (d : Desc) (i : Instr), decodeDesc d = .ok i → encode i = .desc96 d

/-- R74: a descriptor is the command of a row exactly when `D AND mask = match` over all 96 bits, with the operands
`COLOR`, `COUNT` and `SRC` as they stand; no descriptor is the command of two rows. -/
def Obligations.CommandRowsByMask : Prop :=
  ∀ d : Desc,
    (decodeDesc d = .ok (.fill (descColor d) (descCount d)) ↔ d &&& 0xFFFF000000000000FFFFFFFF#96 = 0) ∧
    (decodeDesc d = .ok (.wrpix (descSrc d) (descCount d)) ↔
      d &&& 0xFFFFFFFF0000000000000000#96 = 0x800000000000000000000000#96) ∧
    (decodeDesc d = .ok (.wrpixs (descSrc d) (descCount d)) ↔
      d &&& 0xFFFFFFFF0000000000000000#96 = 0xC00000000000000000000000#96) ∧
    (∀ i, decodeDesc d = .ok i → i = .fill (descColor d) (descCount d) ∨
      i = .wrpix (descSrc d) (descCount d) ∨ i = .wrpixs (descSrc d) (descCount d))

/-- R76: the reserved descriptors are exactly the four kinds the rule lists; a count of 0 is never what makes one
reserved; ISSUE of a reserved one is refused. -/
def Obligations.ReservedDescriptorsRefused : Prop :=
  (∀ d : Desc, (∀ i, decodeDesc d ≠ .ok i) ↔
    (descKind d = false ∧ descSwap d = true) ∨ descReserved d ≠ 0 ∨
      (descKind d = true ∧ descColor d ≠ 0) ∨ (descKind d = false ∧ descSrc d ≠ 0)) ∧
  (∀ (d : Desc) (e : DecodeError) (s : State), decodeDesc d = .error e → s.phase = .idle →
    hostOp (.desc96 d) s = .refused (.reservedEncoding e))

/-- R75 (derived): a register access is the micro-operation of a row exactly when `U AND mask = match`, its operands
the bits the row names. That WAITIDLE, which has no encoding, is a port word without bits is the model's reading, log
entry 8. -/
def Obligations.MicroOperationRowsByMask : Prop :=
  (∀ u : Uop,
    (decodeUop u = .ok .rdbusy ↔ u &&& 0xFFFFFFFFFF#40 = 0) ∧
    (decodeUop u = .ok (.start true) ↔ u &&& 0xFF00000001#40 = 0x8400000001#40) ∧
    (decodeUop u = .ok (.setlen (u.extractLsb' 0 9)) ↔ u &&& 0xFF00000000#40 = 0x8800000000#40) ∧
    (decodeUop u = .ok (.wrslot (u.extractLsb' 34 4) (u.extractLsb' 0 32)) ↔
      u &&& 0xC300000000#40 = 0xC000000000#40)) ∧
  decodePort .pseudo = .ok .waitidle

/-- R77: the reserved register accesses are exactly those the rule lists and are refused in every state; the write of
START with `DATA[0] = 0` is decoded as the no-operation. -/
def Obligations.ReservedAccessesRefused : Prop :=
  (∀ u : Uop, (∀ i, decodeUop u ≠ .ok i) ↔
    (uopOff u).extractLsb' 0 2 ≠ 0 ∨ (0x0C ≤ (uopOff u).toNat ∧ (uopOff u).toNat ≤ 0x3C) ∨
      (uopWr u = false ∧ ((uopOff u).toNat = 0x04 ∨ (uopOff u).toNat = 0x08 ∨ 0x40 ≤ (uopOff u).toNat)) ∨
      (uopWr u = true ∧ uopOff u = 0) ∨ (uopWr u = false ∧ uopData u ≠ 0)) ∧
  (∀ (u : Uop) (e : DecodeError) (s : State), decodeUop u = .error e →
    hostOp (.uop40 u) s = .refused (.reservedEncoding e)) ∧
  (∀ u : Uop, uopWr u = true → uopOff u = 0x04#7 → (uopData u).getLsbD 0 = false →
    decodeUop u = .ok (.start false))

/-- R81 and the vectors V-E1 to V-E10 (derived): words written out in the spec decode to their instructions. -/
def Obligations.DecoderReadsSpecWords : Prop :=
  decodeDesc (descOfWords 0x0000F800 0x00000028 0x00000000) = .ok (.fill 0xF800 40) ∧
  decodeDesc (descOfWords 0x80000000 0x00000005 0x20000000) = .ok (.wrpix 0x20000000 5) ∧
  decodeDesc (descOfWords 0xC0000000 0x00000015 0x20000100) = .ok (.wrpixs 0x20000100 21) ∧
  decodeUop 0x880000007F = .ok (.setlen 127) ∧
  decodeUop 0xCC00F800F8 = .ok (.wrslot 3 0x00F800F8) ∧
  decodeUop 0x8400000001 = .ok (.start true) ∧
  decodeUop 0x0000000000 = .ok .rdbusy ∧
  decodeUop 0x88FFFFFE7F = .ok (.setlen 127)

/-- R54 (derived): SLOT[i] stands at offset `0x40 + 4*i`, and a write there is WRSLOT i. -/
def Obligations.SlotOffsets : Prop :=
  ∀ (i : BitVec 4) (w : Word), (slotOffset i).toNat = 0x40 + 4 * i.toNat ∧
    decodeUop (encodeUop true (slotOffset i) w) = .ok (.wrslot i w)

/-! ### Micro-operations -/

/-- R91: SETLEN v writes `LEN` and nothing else; while busy it is the violation MutateWhileBusy; the bits of `DATA`
above bit 8 are ignored. -/
def Obligations.SetlenWritesLen : Prop :=
  (∀ (v : Len) (s : State), s.params.busMode = .serial → s.phase = .idle →
    exec (.setlen v) s =
      if s.busy then .fault .mutateWhileBusy else .next { s with len := v, lenWritten := true }) ∧
  (∀ u : Uop, uopWr u = true → uopOff u = 0x08#7 → decodeUop u = .ok (.setlen ((uopData u).extractLsb' 0 9)))

/-- R92: WRSLOT i, w writes slot i and nothing else; while busy it is a violation for every slot. -/
def Obligations.WrslotWritesSlot : Prop :=
  ∀ (i : BitVec 4) (w : Word) (s : State), s.params.busMode = .serial → s.phase = .idle →
    (s.busy = true → exec (.wrslot i w) s = .fault .mutateWhileBusy) ∧
    (s.busy = false → ∃ t, exec (.wrslot i w) s = .next t ∧
      t = { s with slots := t.slots, slotWritten := t.slotWritten } ∧
      ∀ j, (h : j < 16) →
        t.slots[j] = (if i.toNat = j then w else s.slots[j]) ∧
        t.slotWritten[j] = (if i.toNat = j then true else s.slotWritten[j]))

/-- R93: START takes the burst's bits and sets `BUSY`, changing neither `LEN` nor any slot; it is StartWhileBusy while
busy and StartUnwritten where `LEN` or a covered slot holds no value. -/
def Obligations.StartBeginsBurst : Prop :=
  ∀ s : State, s.params.busMode = .serial → s.phase = .idle →
    (s.busy = true → exec (.start true) s = .fault .startWhileBusy) ∧
    (s.busy = false →
      (s.lenWritten = true ∧ ∀ w, w ≤ s.len.toNat / 32 → s.slotWritten[w]? = some true) →
      exec (.start true) s = .next { s with inflight := payload s.len s.slots, busy := true }) ∧
    (s.busy = false →
      ¬ (s.lenWritten = true ∧ ∀ w, w ≤ s.len.toNat / 32 → s.slotWritten[w]? = some true) →
      exec (.start true) s = .fault .startUnwritten)

/-- R77, U21 (derived): the write of START with `DATA[0] = 0` changes nothing, in every phase, busy or not. -/
def Obligations.StartWithBitZeroClearDoesNothing : Prop :=
  ∀ s : State, s.params.busMode = .serial → exec (.start false) s = .next s

/-- R94 (derived): RDBUSY answers at any time, returns `BUSY` in bit 0 with the other 31 bits 0, and changes nothing
but the value the HOST holds. -/
def Obligations.RdbusyReturnsBusy : Prop :=
  ∀ s : State, s.params.busMode = .serial →
    exec .rdbusy s = .next { s with result := if s.busy then 1 else 0 }

/-- R95 (derived): WAITIDLE passes exactly while `BUSY = 0` and changes nothing; while `BUSY = 1` the issuer holds at
it and has no step. That `exec` of a held WAITIDLE answers the state with WAITIDLE the HOST's next action again is the
model's form of holding, log entry 10. -/
def Obligations.WaitidlePassesOnlyWhileIdle : Prop :=
  (∀ s : State, s.params.busMode = .serial → s.busy = false → exec .waitidle s = .next s) ∧
  (∀ s : State, s.params.busMode = .serial → s.busy = true →
    exec .waitidle s = .next { s with host := .op .pseudo :: s.host }) ∧
  (∀ (s : State) (rest : List HostAct), s.host = .op .pseudo :: rest → hostEnabled s = !s.busy)

/-- R190 (derived): while a command is active SETLEN, WRSLOT and START of the HOST fault, and RDBUSY and WAITIDLE go
on. The model's choices in it: that the HOST may try at all (log entry 9), that the violation named is this one where
`BUSY = 1` too, which R196 leaves open (log entry 22), and that a held WAITIDLE answers a next state (log entry 10). -/
def Obligations.HostMutationWhileActiveFaults : Prop :=
  ∀ s : State, s.params.busMode = .serial → s.phase ≠ .idle →
    (∀ v, exec (.setlen v) s = .fault .hostMutationWhileActive) ∧
    (∀ i w, exec (.wrslot i w) s = .fault .hostMutationWhileActive) ∧
    exec (.start true) s = .fault .hostMutationWhileActive ∧
    (∃ t, exec .rdbusy s = .next t) ∧ (∃ t, exec .waitidle s = .next t)

/-! ### The bus -/

/-- R96: the order of a burst's bits; the burst as bytes where `LEN + 1` is a multiple of 8; the burst as pixels where
it is a multiple of 16. -/
def Obligations.PayloadBitOrder : Prop :=
  ∀ (len : Len) (x : Vector Word 16),
    (payload len x).length = len.toNat + 1 ∧
    (∀ n w j, n ≤ len.toNat → w = n / 32 → j = n % 32 → (h : w < 16) →
      (payload len x)[n]? = some ((x[w]).getLsbD (8 * (j / 8) + 7 - j % 8))) ∧
    ((len.toNat + 1) % 8 = 0 → payload len x = bytesBits ((List.range ((len.toNat + 1) / 8)).map fun m =>
      (x[m / 4]?.getD 0).extractLsb' (8 * (m % 4)) 8)) ∧
    ((len.toNat + 1) % 16 = 0 → payload len x = bytesBits ((List.range ((len.toNat + 1) / 16)).flatMap fun k =>
      let p := if k % 2 = 0 then lane0 (x[k / 2]?.getD 0) else lane1 (x[k / 2]?.getD 0)
      [p.extractLsb' 0 8, p.extractLsb' 8 8]))

/-- R97 (derived): BURST has a step exactly while `BUSY = 1`; it appends the whole burst to `TX`, drops it and clears
`BUSY`, and leaves everything else, `LEN` and the slots among it. -/
def Obligations.BurstCompletes : Prop :=
  ∀ s : State, enabled s .burst = s.busy ∧
    (s.busy = true →
      agentStep .burst s = .next { s with tx := s.tx ++ s.inflight, inflight := [], busy := false })

/-- R26 (derived): reading the bus history as bytes inverts sending bytes. -/
def Obligations.TxBytesReadsBytesSent : Prop := ∀ bs : List Byte, txBytes (bytesBits bs) = bs

/-- R26, R61, R97 (derived): in one step of the machine `TX` stays, or a burst in flight is appended whole, or the
HOST resets the block. -/
def Obligations.TxGrowsOnlyByWholeBursts : Prop :=
  ∀ s t : State, step s = .next t →
    t.tx = s.tx ∨ (s.busy = true ∧ t.tx = s.tx ++ s.inflight ∧ t.inflight = [] ∧ t.busy = false) ∨
      (t.tx = [] ∧ ∃ rest, s.host = .reset :: rest)

/-- R22, R98 (derived): `BUSY` rises only by a START, of SEQ at a START row or of the HOST while no command is active,
and the START leaves `LEN` and the slots; it falls only when the burst in flight has been appended to `TX`, or by
reset. -/
def Obligations.BusyRisesByStartFallsByCompletion : Prop :=
  ∀ s t : State, step s = .next t →
    (s.busy = false → t.busy = true →
      (s.phase.isStart = true ∨
        (s.phase = .idle ∧ ∃ p rest, s.host = .op p :: rest ∧ decodePort p = .ok (.start true))) ∧
      t.inflight = payload s.len s.slots ∧ t.len = s.len ∧ t.slots = s.slots ∧ startable s = true) ∧
    (s.busy = true → t.busy = false →
      t.tx = s.tx ++ s.inflight ∨ ∃ rest, s.host = .reset :: rest)

/-! ### Pure functions -/

/-- R110: the earlier pixel takes the low lane. -/
def Obligations.PackedLanes : Prop :=
  ∀ p0 p1 : Pixel, pack2 p0 p1 = p1 ++ p0 ∧ lane0 (pack2 p0 p1) = p0 ∧ lane1 (pack2 p0 p1) = p1

/-- R112: FILLWORD holds the colour, its bytes exchanged, in both lanes. -/
def Obligations.FillWordLanes : Prop :=
  ∀ c : Pixel, lane0 (fillWord c) = bswap16 c ∧ lane1 (fillWord c) = bswap16 c ∧
    fillWord c = c.extractLsb' 0 8 ++ c.extractLsb' 8 8 ++ c.extractLsb' 0 8 ++ c.extractLsb' 8 8

/-- R113, R114: SWAPWORD exchanges the bytes inside each pixel and keeps the pixels' order; SWAPHALF is the
same for one pixel, zero above it. -/
def Obligations.SwapWordSwapsEachPixel : Prop :=
  ∀ b0 b1 b2 b3 : Byte,
    swapWord b0 b1 b2 b3 = b2 ++ b3 ++ b0 ++ b1 ∧
    swapWord b0 b1 b2 b3 = pack2 (bswap16 (b1 ++ b0)) (bswap16 (b3 ++ b2)) ∧
    swapHalf b0 b1 = 0#8 ++ 0#8 ++ b0 ++ b1 ∧
    swapHalf b0 b1 = pack2 (bswap16 (b1 ++ b0)) 0

/-- R116: swapping twice is the identity, on a pixel and on the bytes of a word. -/
def Obligations.SwapIsInvolution : Prop :=
  (∀ p : Pixel, bswap16 (bswap16 p) = p) ∧
  (∀ (b0 b1 b2 b3 : Byte) (w : Word), w = swapWord b0 b1 b2 b3 →
    swapWord (byteOf w 0) (byteOf w 1) (byteOf w 2) (byteOf w 3) = b3 ++ b2 ++ b1 ++ b0)

/-- R117: SPLIT gives the remainder modulo 32 and the multiple of 32 below, with nothing lost. -/
def Obligations.SplitOfCount : Prop :=
  ∀ c : Word, (splitRem c).toNat = c.toNat % 32 ∧ splitRem c = (c.extractLsb' 0 5).setWidth 32 ∧
    splitFull c = c.extractLsb' 5 27 ++ 0#5 ∧
    (splitFull c).toNat + (splitRem c).toNat = c.toNat ∧
    (splitFull c).toNat / 32 = (c.extractLsb' 5 27).toNat

/-- R118, R119 (derived): the length of a burst of n pixels is `16*n - 1`, fits nine bits, and covers exactly
`WORDS(n)` slots. -/
def Obligations.LenvalCoversWords : Prop :=
  ∀ n : Nat, 1 ≤ n → n ≤ 32 →
    (lenVal (BitVec.ofNat 32 n)).toNat = 16 * n - 1 ∧
    (lenVal (BitVec.ofNat 32 n)).toNat / 32 + 1 = wordsFor n ∧ wordsFor n ≤ 16

/-! ### The source buffer -/

/-- R51: reads are little-endian at any address; a wide read needs every one of its bytes. -/
def Obligations.SourceReadsLittleEndian : Prop :=
  ∀ (m : Memory) (a : Word) (b0 b1 b2 b3 : Byte),
    readByte m a = some b0 → readByte m (a + 1) = some b1 → readByte m (a + 2) = some b2 →
    readByte m (a + 3) = some b3 →
    readHalf m a = some (b1 ++ b0) ∧ readWord m a = some (b3 ++ b2 ++ b1 ++ b0)

/-- R194, U7 (derived): a slot phase whose source byte cannot be read leaves SEQ stuck, whichever byte it is. -/
def Obligations.UnreadableSourceIsStuck : Prop :=
  ∀ (s : State) (k : Nat), readByte s.mem (s.ptr + BitVec.ofNat 32 k) = none →
    (k < 4 → s.phase = .wFslot ∨ s.phase = .wTslot ∨ s.phase = .sAslot ∨ s.phase = .sBslot ∨
        (s.phase = .sCslot ∧ lastOdd s = false) →
      seqStep s = .fault .sourceUnreadable) ∧
    (k < 2 → s.phase = .sCslot → lastOdd s = true → seqStep s = .fault .sourceUnreadable)

/-- R57, R180, U8 (derived): the HOST may change any byte the active command does not read, and that byte only; a
change of one it reads is refused. -/
def Obligations.HostChangesOnlyFreeBytes : Prop :=
  ∀ (s : State) (a : Word) (b : Option Byte),
    (inRegion s a.toNat = true → readByte s.mem a ≠ b → hostPoke a b s = .refused .sourceChanged) ∧
    (inRegion s a.toNat = false → ∃ t, hostPoke a b s = .next t ∧ t = { s with mem := t.mem } ∧
      ∀ x : Nat, memRead t.mem x = if a.toNat = x then b else memRead s.mem x)

/-- R52, R58, R56 (derived): ISSUE of a WRPIX or WRPIXS whose read region passes the top of the address space, or of a
WRPIX that breaks `SRC_ALIGN = 4`, is refused. That a WRPIX that does both is refused for its alignment is the model's
order, log entry 13. -/
def Obligations.BadSourceRegionRefused : Prop :=
  ∀ (s : State) (src count : Word), s.params.busMode = .serial → s.phase = .idle → count ≠ 0 →
    (s.params.srcAlign = .four → src.extractLsb' 0 2 ≠ 0 →
      exec (.wrpix src count) s = .refused .sourceMisaligned) ∧
    ((s.params.srcAlign = .four → src.extractLsb' 0 2 = 0) → 2 ^ 32 < src.toNat + 4 * ((count.toNat + 1) / 2) →
      exec (.wrpix src count) s = .refused .sourcePassesTop) ∧
    (2 ^ 32 < src.toNat + 2 * count.toNat → exec (.wrpixs src count) s = .refused .sourcePassesTop)

/-! ### Commands -/

/-- R125, R145, R160, R175 (derived): ISSUE of each command, busy or not: the descriptor is latched, the sequencer
enters the command, and nothing else changes; a count of 0 looks at no address. -/
def Obligations.CommandsAreIssued : Prop :=
  ∀ s : State, s.params.busMode = .serial → s.phase = .idle →
    (∀ color count, exec (.fill color count) s =
      .next { s with desc := encodeDesc false false color count 0, phase := .fEntry }) ∧
    (∀ src count, (count = 0 ∨ (s.params.srcAlign = .four → src.extractLsb' 0 2 = 0)) →
      (count = 0 ∨ src.toNat + 4 * ((count.toNat + 1) / 2) ≤ 2 ^ 32) →
      exec (.wrpix src count) s =
        .next { s with desc := encodeDesc true false 0 count src, phase := .wEntry }) ∧
    (∀ src count, (count = 0 ∨ src.toNat + 2 * count.toNat ≤ 2 ^ 32) →
      exec (.wrpixs src count) s =
        .next { s with desc := encodeDesc true true 0 count src, phase := .sEntry })

/-- R175 (derived; the condition on the source region is R52's and R58's): the HOST hands over a legal descriptor at
`pc = IDLE` and `DESC` is exactly that descriptor, `pc` the entry phase of its command. -/
def Obligations.IssueLatchesTheDescriptor : Prop :=
  ∀ (s : State) (d : Desc) (i : Instr), s.params.busMode = .serial → s.phase = .idle → decodeDesc d = .ok i →
    i.WellFormed → s.params.srcAlign = .one →
    hostOp (.desc96 d) s = .next { s with
      desc := d
      phase := if descKind d then (if descSwap d then .sEntry else .wEntry) else .fEntry }

/-- R192, R175, R196 (derived): ISSUE while a command is active faults, of every descriptor. The model's choices in it:
that the HOST may try at all (log entry 9), and that the violation named is this one for a reserved descriptor too (log
entry 22). -/
def Obligations.IssueWhileActiveFaults : Prop :=
  ∀ (s : State) (d : Desc), s.params.busMode = .serial → s.phase ≠ .idle →
    hostOp (.desc96 d) s = .fault .issueWhileActive

/-- R126, R146, R161 (derived): a command with `COUNT = 0` completes in its entry step with no register access and no
memory read, whatever the memory holds. -/
def Obligations.CountZeroCompletesAtOnce : Prop :=
  ∀ s : State, s.phase.isEntry = true → descCount s.desc = 0 →
    ∃ t, seqStep s = .next t ∧ t.phase = .idle ∧
      t = { s with phase := .idle, rem := t.rem, full := t.full, ptr := t.ptr, idx := t.idx, fw := t.fw }

/-- R176 (derived): SEQ writes `pc <- IDLE` only in the entry step of a command with `COUNT = 0` or in the step of a
START, whose burst is then still in flight. -/
def Obligations.CompletionAtEntryOrLastStart : Prop :=
  ∀ s t : State, s.phase ≠ .idle → seqStep s = .next t → t.phase = .idle →
    (s.phase.isEntry = true ∧ descCount s.desc = 0 ∧ t.busy = s.busy) ∨
    (s.phase.isStart = true ∧ s.busy = false ∧ t.busy = true ∧ t.inflight = payload s.len s.slots)

/-- R29 (derived): `pc` leaves IDLE only by an ISSUE, to the entry phase of a command. -/
def Obligations.PhaseLeavesIdleOnlyByIssue : Prop :=
  ∀ s t : State, step s = .next t → s.phase = .idle → t.phase ≠ .idle →
    t.phase.isEntry = true ∧ ∃ d rest, s.host = .op (.desc96 d) :: rest ∧ t.desc = d

/-- R27 (derived): after the entry phase `DESC` is dead: no later phase's step depends on it. -/
def Obligations.DescIsDeadAfterEntry : Prop :=
  ∀ (s : State) (d : Desc), s.phase.isEntry = false →
    seqStep { s with desc := d } = mapNext (seqStep s) (fun t => { t with desc := d })

/-! ### Frames -/

/-- The frame of the micro-operations: R30, R90 to R95 (derived): what each leaves unchanged. -/
def Obligations.MicroOperationsFrame : Prop :=
  ∀ (i : Instr) (s t : State), isCommand i = false → exec i s = .next t →
    t.desc = s.desc ∧ t.phase = s.phase ∧ t.rem = s.rem ∧ t.full = s.full ∧ t.ptr = s.ptr ∧ t.idx = s.idx ∧
    t.fw = s.fw ∧ t.tx = s.tx ∧ t.params = s.params ∧ t.sched = s.sched ∧ t.turn = s.turn ∧
    ((∀ v, i ≠ .setlen v) → t.len = s.len ∧ t.lenWritten = s.lenWritten) ∧
    (∀ j, (h : j < 16) → (∀ n w, i = .wrslot n w → n.toNat ≠ j) →
      t.slots[j] = s.slots[j] ∧ t.slotWritten[j] = s.slotWritten[j]) ∧
    (i ≠ .start true → t.busy = s.busy ∧ t.inflight = s.inflight) ∧
    (i ≠ .rdbusy → t.result = s.result) ∧
    (i ≠ .waitidle → t.host = s.host) ∧
    (∀ a, memRead t.mem a = memRead s.mem a)

/-- The frame of the commands as the HOST issues them: R175 (derived): all but `DESC` and `pc` is unchanged. -/
def Obligations.CommandsFrame : Prop :=
  ∀ (i : Instr) (s t : State), isCommand i = true → exec i s = .next t →
    t.slots = s.slots ∧ t.slotWritten = s.slotWritten ∧ t.busy = s.busy ∧ t.len = s.len ∧
    t.lenWritten = s.lenWritten ∧ t.inflight = s.inflight ∧ t.tx = s.tx ∧ t.rem = s.rem ∧ t.full = s.full ∧
    t.ptr = s.ptr ∧ t.idx = s.idx ∧ t.fw = s.fw ∧ t.params = s.params ∧ t.host = s.host ∧ t.result = s.result ∧
    t.sched = s.sched ∧ t.turn = s.turn ∧ (∀ a, memRead t.mem a = memRead s.mem a)

/-- The frame of SEQ: R53, R20 (derived): a phase writes no byte of memory, sends nothing, and touches neither the
command latch nor the HOST's side; only a START row writes `BUSY`, only a SETLEN row `LEN`, only a WRSLOT row a slot,
and only `SLOT[IDX]`; each working register is written only at the rows that name it (R131, R150, R167). -/
def Obligations.SequencerFrame : Prop :=
  ∀ s t : State, seqStep s = .next t →
    t.tx = s.tx ∧ t.desc = s.desc ∧ t.params = s.params ∧ t.host = s.host ∧ t.result = s.result ∧
    t.sched = s.sched ∧ t.turn = s.turn ∧ (∀ a, memRead t.mem a = memRead s.mem a) ∧
    (s.phase.isStart = false → t.busy = s.busy ∧ t.inflight = s.inflight) ∧
    (s.phase.isLength = false → t.len = s.len ∧ t.lenWritten = s.lenWritten) ∧
    (∀ j, (h : j < 16) → (s.phase.isSlot = true → s.idx.toNat ≠ j) →
      t.slots[j] = s.slots[j] ∧ t.slotWritten[j] = s.slotWritten[j]) ∧
    (s.phase.isEntry = false → s.phase ∉ [.wFstart, .sAstart, .sBstart] → t.rem = s.rem) ∧
    (s.phase ∉ [.fEntry, .fLstart] → t.full = s.full) ∧
    (s.phase ∉ [.wEntry, .sEntry] → s.phase.isLoad = false → t.ptr = s.ptr) ∧
    (s.phase.isEntry = false → s.phase.isSlot = false → s.phase ∉ [.wFlen, .wTlen, .sAlen, .sBlen, .sClen] →
      t.idx = s.idx) ∧
    (s.phase ≠ .fEntry → t.fw = s.fw)

/-! ### The step -/

/-- R10, R62 (derived): when the HOST is the agent that steps and its next word decodes to an instruction, the step is
`exec` of it, the word taken off the HOST's list; at `pc = IDLE` with `BUSY = 0` HOST is that agent. -/
def Obligations.StepRunsDecodedInstruction : Prop :=
  ∀ (s : State) (p : PortWord) (rest : List HostAct) (i : Instr), s.params.busMode = .serial →
    s.host = .op p :: rest → decodePort p = .ok i →
    (∀ u, chooseAgent s = some (.host, u) →
      step s = exec i (u.setHost rest) ∧ ∃ l n, u = s.setSched l n) ∧
    (s.phase = .idle → s.busy = false → step s = exec i (s.setHost rest))

/-- R10, R32 (derived): any agent that has a step can be the one that takes it: a schedule that names it next makes it
step. -/
def Obligations.AnyEnabledAgentCanStep : Prop :=
  ∀ (s : State) (a : Agent) (rest : List Agent), s.params.busMode = .serial → enabled s a = true →
    s.sched = a :: rest → ∃ l n, step s = agentStep a (s.setSched l n)

/-- R210, R11 (derived): where no command is active, no burst is in flight and the HOST wants nothing, nothing
happens. -/
def Obligations.QuietStateStays : Prop := ∀ s : State, quiet s → step s = .next s

/-- R95, R97 (derived): SEQ held at a WAITIDLE while a burst is in flight: the machine completes the burst and then
SEQ passes. -/
def Obligations.HeldWaitPassesAfterBurst : Prop :=
  ∀ s : State, s.params.busMode = .serial → s.phase.isWait = true → s.busy = true → s.host = [] →
    ∃ t u, step s = .next t ∧ t = { s with tx := s.tx ++ s.inflight, inflight := [], busy := false } ∧
      step t = .next u ∧ u.phase ≠ s.phase ∧ u = { t with phase := u.phase }

/-- U17, R7 (derived): with `BUS_MODE = parallel8` the machine takes no step. -/
def Obligations.ParallelBusRefused : Prop :=
  ∀ s : State, s.params.busMode = .parallel8 →
    step s = .refused .parallelBus ∧ ∀ i : Instr, exec i s = .refused .parallelBus

/-- R178 (derived): the two status reads of the HOST, legal at any time: `SEQ_ACTIVE` is 1 exactly while a command is
active, and the HOST's wait for it to fall has a step exactly then. -/
def Obligations.HostSeesSeqActive : Prop :=
  ∀ (s : State) (rest : List HostAct),
    (s.host = .readActive :: rest → hostEnabled s = true ∧
      hostStep s = .next { s with host := rest, result := if s.phase = .idle then 0 else 1 }) ∧
    (s.host = .awaitDone :: rest → (hostEnabled s = true ↔ s.phase = .idle) ∧
      hostStep s = .next { s with host := rest })

/-! ### Reset and the invariant -/

/-- R33 (derived; the values of what holds no value are the model's, log entries 1 to 6): the state after reset. -/
def Obligations.ResetState : Prop :=
  State.reset.busy = false ∧ State.reset.inflight = [] ∧ State.reset.tx = [] ∧ State.reset.phase = .idle ∧
  State.reset.seqActive = false ∧ State.reset.lenWritten = false ∧
  (∀ j, (h : j < 16) → State.reset.slotWritten[j] = false) ∧
  exec (.start true) State.reset = .fault .startUnwritten

/-- R210, R211 (derived): a reset at any moment, a burst in flight or not, gives the block its reset state and leaves
the source buffers and the parameters. The model's choices in it: the zeros in `LEN` and the slots (log entry 1) and in
`DESC` and the working registers (log entry 2), to which R33 gives no value, and what stands outside the block and is
kept (log entry 15). -/
def Obligations.ResetAtAnyMoment : Prop :=
  ∀ (s : State) (rest : List HostAct), s.host = .reset :: rest →
    hostEnabled s = true ∧ hostStep s = .next { State.reset with
      params := s.params, mem := s.mem, host := rest, result := s.result, sched := s.sched, turn := s.turn }

/-- The invariant holds after reset. -/
def Obligations.InvariantAtReset : Prop := BlockInv State.reset

/-- R90, R132, R151, R167 (derived): every step of the machine, whichever agent takes it, keeps the invariant: memory in
canonical form, a burst of 1 to 512 bits in flight exactly while `BUSY = 1`, and at every phase the contract of R90. -/
def Obligations.StepKeepsInvariant : Prop := ∀ s t : State, BlockInv s → step s = .next t → BlockInv t

/-- R186 (derived): SEQ never causes a contract violation: its one way to stop is a source byte that cannot be read. -/
def Obligations.SequencerNeverViolates : Prop :=
  ∀ s : State, BlockInv s →
    (∀ e, seqStep s = .fault e → e = .sourceUnreadable) ∧ (∀ r, seqStep s ≠ .refused r)

/-- R56, R57, R194 (derived): while every byte of the active command's read region is readable, every phase has a next
state. -/
def Obligations.SequencerGoesOnWithReadableBuffer : Prop :=
  ∀ s : State, BlockInv s → readable s.mem (regionStart s.desc) (regionSize s.desc) = true →
    ∃ t, seqStep s = .next t

/-- R56, R57 (derived): SEQ learns nothing of memory but the active command's read region: two memories that agree on
it give the same step. -/
def Obligations.SequencerReadsOnlyItsRegion : Prop :=
  ∀ (s : State) (m : Memory), BlockInv s → (∀ a, inRegion s a = true → memRead m a = memRead s.mem a) →
    seqStep (s.setMem m) = mapNext (seqStep s) (fun t => t.setMem m)

/-! ### What the commands send -/

/-- R132, R133, Q1 (derived): from any state with `pc = IDLE`, a burst in flight or not, `FILL color, count` runs to a
quiet state; `TX` has grown by the burst that was in flight and then by exactly the colour, high byte first, `count`
times; the bursts are the remainder and then the full ones. -/
def Obligations.FillSendsColourCountTimes : Prop :=
  ∀ (s : State) (c : Pixel) (n : Word), standing s →
    ∃ k t, runLog k (asking s (encode (.fill c n))) = some (t, fillBursts n.toNat) ∧ quiet t ∧
      t.tx = sentSoFar s ++ bytesBits (fillBytes c n.toNat) ∧ t.mem = s.mem ∧ t.params = s.params ∧
      t.result = s.result

/-- R134 (derived): what FILL leaves in `LEN` and the slots, a burst in flight at its start or not. -/
def Obligations.FillLeavesItsWord : Prop :=
  ∀ (s : State) (c : Pixel) (n : Word), standing s →
    ∃ k t lens, runLog k (asking s (encode (.fill c n))) = some (t, lens) ∧ quiet t ∧
      (n = 0 → t.len = s.len ∧ t.slots = s.slots) ∧
      (n ≠ 0 → t.len = if n.toNat < 32 then burstLen n.toNat else 511) ∧
      (n ≠ 0 → ∀ j, (h : j < 16) →
        t.slots[j] = if 32 ≤ n.toNat ∨ j < wordsFor n.toNat then fillWord c else s.slots[j])

/-- R151, R152, Q2 (derived): from any state with `pc = IDLE`, a burst in flight or not, `WRPIX src, count` over a
readable buffer runs to a quiet state; `TX` has grown by the burst that was in flight and then by exactly the `2*count`
bytes at `src` in address order; full windows first, then the remainder; `LEN` is left at the last burst's, and the
slots hold the last windows' words, those no window covered what they held. -/
def Obligations.WrpixSendsBufferInOrder : Prop :=
  ∀ (s : State) (src n : Word), standing s → alignedFor s.params src n = true → (Instr.wrpix src n).WellFormed →
    readable s.mem src.toNat (4 * wordsFor n.toNat) = true →
    ∃ k t, runLog k (asking s (encode (.wrpix src n))) = some (t, streamBursts n.toNat) ∧ quiet t ∧
      t.tx = sentSoFar s ++ bytesBits (bytesAt s.mem src.toNat (2 * n.toNat)) ∧
      (n = 0 → t.len = s.len ∧ t.slots = s.slots) ∧ (n ≠ 0 → (streamBursts n.toNat).getLast? = some t.len) ∧
      streamLeaves s t src n ∧ t.mem = s.mem ∧ t.params = s.params ∧ t.result = s.result

/-- R165, R168, R169, Q3 (derived): from any state with `pc = IDLE`, a burst in flight or not, `WRPIXS src, count` over
a readable buffer of `2*count` bytes runs to a quiet state; `TX` has grown by the burst that was in flight and then by
every pixel in its place, its two bytes exchanged; the bursts are those of the three tiers; `LEN` is left at the last
burst's, and the slots hold the last bursts' words, the lane past an odd count zero, those no burst covered what they
held. -/
def Obligations.WrpixsSendsPixelsSwapped : Prop :=
  ∀ (s : State) (src n : Word), standing s → (Instr.wrpixs src n).WellFormed →
    readable s.mem src.toNat (2 * n.toNat) = true →
    ∃ k t, runLog k (asking s (encode (.wrpixs src n))) = some (t, swapBursts n.toNat) ∧ quiet t ∧
      t.tx = sentSoFar s ++ bytesBits (swappedBytes s.mem src.toNat n.toNat) ∧
      (n = 0 → t.len = s.len ∧ t.slots = s.slots) ∧ (n ≠ 0 → (swapBursts n.toNat).getLast? = some t.len) ∧
      swapLeaves s t src n ∧ t.mem = s.mem ∧ t.params = s.params ∧ t.result = s.result

/-- R179 (derived): two FILLs of one colour, the second issued as soon as the first has completed, its last burst in
flight or not, send what one FILL of the sum of the counts sends, after a burst in flight at the start. -/
def Obligations.ConsecutiveFillsSendInOrder : Prop :=
  ∀ (s : State) (c : Pixel) (a b : Word), standing s → a.toNat + b.toNat < 2 ^ 32 →
    ∃ k t lens,
      runLog k (s.setHost [.op (encode (.fill c a)), .awaitDone, .op (encode (.fill c b))]) = some (t, lens) ∧
      quiet t ∧ t.tx = sentSoFar s ++ bytesBits (fillBytes c (a.toNat + b.toNat))

/-- R116, R168, Q7 (derived): a WRPIXS runs and puts some bytes on the bus; a WRPIXS over a buffer that holds exactly
those bytes runs and puts the first buffer's bytes on the bus in address order, which is what WRPIX of the first
buffer sends (WrpixSendsBufferInOrder). -/
def Obligations.SwappedTwiceIsTheBuffer : Prop :=
  ∀ (s s' : State) (src src' n : Word), standing s → standing s' →
    (Instr.wrpixs src n).WellFormed → (Instr.wrpixs src' n).WellFormed →
    readable s.mem src.toNat (2 * n.toNat) = true → readable s'.mem src'.toNat (2 * n.toNat) = true →
    ∃ k t lens bs, runLog k (asking s (encode (.wrpixs src n))) = some (t, lens) ∧ quiet t ∧
      t.tx = sentSoFar s ++ bytesBits bs ∧
      (bytesAt s'.mem src'.toNat (2 * n.toNat) = bs →
        ∃ k' t' lens', runLog k' (asking s' (encode (.wrpixs src' n))) = some (t', lens') ∧ quiet t' ∧
          t'.tx = sentSoFar s' ++ bytesBits (bytesAt s.mem src.toNat (2 * n.toNat)))
end

