-- ==== Sys2Proof/Laws/Decode.lean ====
section
/-! SUPPORT. The fields of an encoded word are the fields it was made of (R71, R72). -/

namespace Sys2Proof

theorem descKind_encodeDesc (k s : Bool) (c : Pixel) (n a : Word) : descKind (encodeDesc k s c n a) = k := by
  simp only [descKind, encodeDesc, BitVec.getLsbD_append]; simp

theorem descSwap_encodeDesc (k s : Bool) (c : Pixel) (n a : Word) : descSwap (encodeDesc k s c n a) = s := by
  simp only [descSwap, encodeDesc, BitVec.getLsbD_append]; simp

theorem descReserved_encodeDesc (k s : Bool) (c : Pixel) (n a : Word) : descReserved (encodeDesc k s c n a) = 0 := by
  apply BitVec.eq_of_getLsbD_eq
  intro i hi
  simp only [descReserved, encodeDesc, BitVec.getLsbD_extractLsb', BitVec.getLsbD_append]
  interval_cases i <;> simp

theorem descColor_encodeDesc (k s : Bool) (c : Pixel) (n a : Word) : descColor (encodeDesc k s c n a) = c := by
  apply BitVec.eq_of_getLsbD_eq
  intro i hi
  simp only [descColor, encodeDesc, BitVec.getLsbD_extractLsb', BitVec.getLsbD_append]
  interval_cases i <;> simp

theorem descCount_encodeDesc (k s : Bool) (c : Pixel) (n a : Word) : descCount (encodeDesc k s c n a) = n := by
  apply BitVec.eq_of_getLsbD_eq
  intro i hi
  simp only [descCount, encodeDesc, BitVec.getLsbD_extractLsb', BitVec.getLsbD_append]
  interval_cases i <;> simp

theorem descSrc_encodeDesc (k s : Bool) (c : Pixel) (n a : Word) : descSrc (encodeDesc k s c n a) = a := by
  apply BitVec.eq_of_getLsbD_eq
  intro i hi
  simp only [descSrc, encodeDesc, BitVec.getLsbD_extractLsb', BitVec.getLsbD_append]
  interval_cases i <;> simp

theorem uopWr_encodeUop (r : Bool) (o : BitVec 7) (d : Word) : uopWr (encodeUop r o d) = r := by
  simp only [uopWr, encodeUop, BitVec.getLsbD_append]; simp

theorem uopOff_encodeUop (r : Bool) (o : BitVec 7) (d : Word) : uopOff (encodeUop r o d) = o := by
  apply BitVec.eq_of_getLsbD_eq
  intro i hi
  simp only [uopOff, encodeUop, BitVec.getLsbD_extractLsb', BitVec.getLsbD_append]
  interval_cases i <;> simp

theorem uopData_encodeUop (r : Bool) (o : BitVec 7) (d : Word) : uopData (encodeUop r o d) = d := by
  apply BitVec.eq_of_getLsbD_eq
  intro i hi
  simp only [uopData, encodeUop, BitVec.getLsbD_extractLsb', BitVec.getLsbD_append]
  interval_cases i <;> simp

end Sys2Proof
end

