-- ==== Sys2Proof/Laws/Memory.lean ====
section
/-! SUPPORT. The laws of the source-buffer space: read after write, and the canonical form is kept. -/

namespace Sys2Proof.Machine

@[simp] theorem memRead_nil (a : Nat) : memRead [] a = none := rfl

@[simp] theorem memRead_cons (k : Nat) (b : Byte) (m : Memory) (a : Nat) :
    memRead ((k, b) :: m) a = if k = a then some b else memRead m a := rfl

theorem memRead_memPut (m : Memory) (a x : Nat) (b : Byte) :
    memRead (memPut m a b) x = if a = x then some b else memRead m x := by
  induction m with
  | nil => rfl
  | cons c m ih =>
    obtain ⟨k, c⟩ := c
    unfold memPut
    split
    · rfl
    · split
      · subst k; simp only [memRead_cons]; split <;> rfl
      · simp only [memRead_cons, ih]
        by_cases hk : k = x
        · subst hk; simp_all
        · simp [hk]

theorem memRead_memDrop (m : Memory) (a x : Nat) :
    memRead (memDrop m a) x = if a = x then none else memRead m x := by
  induction m with
  | nil => simp [memDrop]
  | cons c m ih =>
    obtain ⟨k, c⟩ := c
    unfold memDrop at ih ⊢
    by_cases hk : k = a
    · subst hk
      rw [List.filter_cons_of_neg (by simp), ih, memRead_cons]
      split <;> simp_all
    · rw [List.filter_cons_of_pos (by simpa using hk), memRead_cons, memRead_cons, ih]
      by_cases hx : k = x
      · subst hx; simp [Ne.symm hk]
      · simp [hx]

/-- Read after write: the byte written, and every other byte as before. -/
theorem memRead_memSet (m : Memory) (a x : Nat) (b : Option Byte) :
    memRead (memSet m a b) x = if a = x then b else memRead m x := by
  cases b with
  | none => exact memRead_memDrop m a x
  | some b => exact memRead_memPut m a x b

theorem mem_memPut {m : Memory} {a : Nat} {b : Byte} {c : Host.Cell} (h : c ∈ memPut m a b) : c = (a, b) ∨ c ∈ m := by
  induction m with
  | nil => simpa [memPut] using h
  | cons d m ih =>
    obtain ⟨k, d⟩ := d
    unfold memPut at h
    split at h
    · simpa using h
    · split at h
      · rcases List.mem_cons.1 h with h | h
        · exact .inl h
        · exact .inr (List.mem_cons_of_mem _ h)
      · rcases List.mem_cons.1 h with h | h
        · exact .inr (by simp [h])
        · exact (ih h).imp_right (List.mem_cons_of_mem _)

theorem memPut_pairwise {m : Memory} (a : Nat) (b : Byte) (h : m.Pairwise (fun x y => x.1 < y.1)) :
    (memPut m a b).Pairwise (fun x y => x.1 < y.1) := by
  induction m with
  | nil => simp [memPut]
  | cons d m ih =>
    obtain ⟨k, d⟩ := d
    rw [List.pairwise_cons] at h
    unfold memPut
    split
    · rename_i hak
      refine List.pairwise_cons.2 ⟨fun c hc => ?_, List.pairwise_cons.2 h⟩
      rcases List.mem_cons.1 hc with rfl | hc
      · exact hak
      · exact lt_trans hak (h.1 c hc)
    · split
      · subst k; exact List.pairwise_cons.2 h
      · refine List.pairwise_cons.2 ⟨fun c hc => ?_, ih h.2⟩
        rcases mem_memPut hc with rfl | hc
        · show k < a; omega
        · exact h.1 c hc

/-- A write keeps the canonical form. -/
theorem memPut_wf {m : Memory} (a : Word) (b : Byte) (h : Memory.wf m) : Memory.wf (memPut m a.toNat b) := by
  refine ⟨memPut_pairwise _ _ h.1, fun c hc => ?_⟩
  rcases mem_memPut hc with rfl | hc
  · exact a.isLt
  · exact h.2 c hc

theorem memDrop_wf {m : Memory} (a : Nat) (h : Memory.wf m) : Memory.wf (memDrop m a) :=
  ⟨h.1.filter _, fun c hc => h.2 c (List.mem_of_mem_filter hc)⟩

/-- Every memory operation keeps the canonical form. -/
theorem memSet_wf {m : Memory} (a : Word) (b : Option Byte) (h : Memory.wf m) : Memory.wf (memSet m a.toNat b) := by
  cases b with
  | none => exact memDrop_wf _ h
  | some b => exact memPut_wf a b h

theorem reset_mem_wf : Memory.wf State.reset.mem := by decide

end Sys2Proof.Machine
end

