-- ==== Sys2Proof/Laws/State.lean ====
section
/-! SUPPORT. What each named update does to each field of the state: one lemma a field, by `rfl`, in the simp set,
so that no proof unfolds a record update. -/

namespace Sys2Proof.Machine

variable (s : State)

/-! ### `writeLen` -/

@[simp] theorem State.writeLen_slots (v : Len) : (s.writeLen v).slots = s.slots := rfl
@[simp] theorem State.writeLen_slotWritten (v : Len) : (s.writeLen v).slotWritten = s.slotWritten := rfl
@[simp] theorem State.writeLen_busy (v : Len) : (s.writeLen v).busy = s.busy := rfl
@[simp] theorem State.writeLen_len (v : Len) : (s.writeLen v).len = v := rfl
@[simp] theorem State.writeLen_lenWritten (v : Len) : (s.writeLen v).lenWritten = true := rfl
@[simp] theorem State.writeLen_inflight (v : Len) : (s.writeLen v).inflight = s.inflight := rfl
@[simp] theorem State.writeLen_tx (v : Len) : (s.writeLen v).tx = s.tx := rfl
@[simp] theorem State.writeLen_desc (v : Len) : (s.writeLen v).desc = s.desc := rfl
@[simp] theorem State.writeLen_phase (v : Len) : (s.writeLen v).phase = s.phase := rfl
@[simp] theorem State.writeLen_rem (v : Len) : (s.writeLen v).rem = s.rem := rfl
@[simp] theorem State.writeLen_full (v : Len) : (s.writeLen v).full = s.full := rfl
@[simp] theorem State.writeLen_ptr (v : Len) : (s.writeLen v).ptr = s.ptr := rfl
@[simp] theorem State.writeLen_idx (v : Len) : (s.writeLen v).idx = s.idx := rfl
@[simp] theorem State.writeLen_fw (v : Len) : (s.writeLen v).fw = s.fw := rfl
@[simp] theorem State.writeLen_params (v : Len) : (s.writeLen v).params = s.params := rfl
@[simp] theorem State.writeLen_mem (v : Len) : (s.writeLen v).mem = s.mem := rfl
@[simp] theorem State.writeLen_host (v : Len) : (s.writeLen v).host = s.host := rfl
@[simp] theorem State.writeLen_result (v : Len) : (s.writeLen v).result = s.result := rfl
@[simp] theorem State.writeLen_sched (v : Len) : (s.writeLen v).sched = s.sched := rfl
@[simp] theorem State.writeLen_turn (v : Len) : (s.writeLen v).turn = s.turn := rfl

/-! ### `writeSlot` -/

@[simp] theorem State.writeSlot_slots (i : BitVec 4) (w : Word) : (s.writeSlot i w).slots = s.slots.set i.toNat w i.isLt := rfl
@[simp] theorem State.writeSlot_slotWritten (i : BitVec 4) (w : Word) : (s.writeSlot i w).slotWritten = s.slotWritten.set i.toNat true i.isLt := rfl
@[simp] theorem State.writeSlot_busy (i : BitVec 4) (w : Word) : (s.writeSlot i w).busy = s.busy := rfl
@[simp] theorem State.writeSlot_len (i : BitVec 4) (w : Word) : (s.writeSlot i w).len = s.len := rfl
@[simp] theorem State.writeSlot_lenWritten (i : BitVec 4) (w : Word) : (s.writeSlot i w).lenWritten = s.lenWritten := rfl
@[simp] theorem State.writeSlot_inflight (i : BitVec 4) (w : Word) : (s.writeSlot i w).inflight = s.inflight := rfl
@[simp] theorem State.writeSlot_tx (i : BitVec 4) (w : Word) : (s.writeSlot i w).tx = s.tx := rfl
@[simp] theorem State.writeSlot_desc (i : BitVec 4) (w : Word) : (s.writeSlot i w).desc = s.desc := rfl
@[simp] theorem State.writeSlot_phase (i : BitVec 4) (w : Word) : (s.writeSlot i w).phase = s.phase := rfl
@[simp] theorem State.writeSlot_rem (i : BitVec 4) (w : Word) : (s.writeSlot i w).rem = s.rem := rfl
@[simp] theorem State.writeSlot_full (i : BitVec 4) (w : Word) : (s.writeSlot i w).full = s.full := rfl
@[simp] theorem State.writeSlot_ptr (i : BitVec 4) (w : Word) : (s.writeSlot i w).ptr = s.ptr := rfl
@[simp] theorem State.writeSlot_idx (i : BitVec 4) (w : Word) : (s.writeSlot i w).idx = s.idx := rfl
@[simp] theorem State.writeSlot_fw (i : BitVec 4) (w : Word) : (s.writeSlot i w).fw = s.fw := rfl
@[simp] theorem State.writeSlot_params (i : BitVec 4) (w : Word) : (s.writeSlot i w).params = s.params := rfl
@[simp] theorem State.writeSlot_mem (i : BitVec 4) (w : Word) : (s.writeSlot i w).mem = s.mem := rfl
@[simp] theorem State.writeSlot_host (i : BitVec 4) (w : Word) : (s.writeSlot i w).host = s.host := rfl
@[simp] theorem State.writeSlot_result (i : BitVec 4) (w : Word) : (s.writeSlot i w).result = s.result := rfl
@[simp] theorem State.writeSlot_sched (i : BitVec 4) (w : Word) : (s.writeSlot i w).sched = s.sched := rfl
@[simp] theorem State.writeSlot_turn (i : BitVec 4) (w : Word) : (s.writeSlot i w).turn = s.turn := rfl

/-! ### `beginBurst` -/

@[simp] theorem State.beginBurst_slots : s.beginBurst.slots = s.slots := rfl
@[simp] theorem State.beginBurst_slotWritten : s.beginBurst.slotWritten = s.slotWritten := rfl
@[simp] theorem State.beginBurst_busy : s.beginBurst.busy = true := rfl
@[simp] theorem State.beginBurst_len : s.beginBurst.len = s.len := rfl
@[simp] theorem State.beginBurst_lenWritten : s.beginBurst.lenWritten = s.lenWritten := rfl
@[simp] theorem State.beginBurst_inflight : s.beginBurst.inflight = payload s.len s.slots := rfl
@[simp] theorem State.beginBurst_tx : s.beginBurst.tx = s.tx := rfl
@[simp] theorem State.beginBurst_desc : s.beginBurst.desc = s.desc := rfl
@[simp] theorem State.beginBurst_phase : s.beginBurst.phase = s.phase := rfl
@[simp] theorem State.beginBurst_rem : s.beginBurst.rem = s.rem := rfl
@[simp] theorem State.beginBurst_full : s.beginBurst.full = s.full := rfl
@[simp] theorem State.beginBurst_ptr : s.beginBurst.ptr = s.ptr := rfl
@[simp] theorem State.beginBurst_idx : s.beginBurst.idx = s.idx := rfl
@[simp] theorem State.beginBurst_fw : s.beginBurst.fw = s.fw := rfl
@[simp] theorem State.beginBurst_params : s.beginBurst.params = s.params := rfl
@[simp] theorem State.beginBurst_mem : s.beginBurst.mem = s.mem := rfl
@[simp] theorem State.beginBurst_host : s.beginBurst.host = s.host := rfl
@[simp] theorem State.beginBurst_result : s.beginBurst.result = s.result := rfl
@[simp] theorem State.beginBurst_sched : s.beginBurst.sched = s.sched := rfl
@[simp] theorem State.beginBurst_turn : s.beginBurst.turn = s.turn := rfl

/-! ### `endBurst` -/

@[simp] theorem State.endBurst_slots : s.endBurst.slots = s.slots := rfl
@[simp] theorem State.endBurst_slotWritten : s.endBurst.slotWritten = s.slotWritten := rfl
@[simp] theorem State.endBurst_busy : s.endBurst.busy = false := rfl
@[simp] theorem State.endBurst_len : s.endBurst.len = s.len := rfl
@[simp] theorem State.endBurst_lenWritten : s.endBurst.lenWritten = s.lenWritten := rfl
@[simp] theorem State.endBurst_inflight : s.endBurst.inflight = [] := rfl
@[simp] theorem State.endBurst_tx : s.endBurst.tx = s.tx ++ s.inflight := rfl
@[simp] theorem State.endBurst_desc : s.endBurst.desc = s.desc := rfl
@[simp] theorem State.endBurst_phase : s.endBurst.phase = s.phase := rfl
@[simp] theorem State.endBurst_rem : s.endBurst.rem = s.rem := rfl
@[simp] theorem State.endBurst_full : s.endBurst.full = s.full := rfl
@[simp] theorem State.endBurst_ptr : s.endBurst.ptr = s.ptr := rfl
@[simp] theorem State.endBurst_idx : s.endBurst.idx = s.idx := rfl
@[simp] theorem State.endBurst_fw : s.endBurst.fw = s.fw := rfl
@[simp] theorem State.endBurst_params : s.endBurst.params = s.params := rfl
@[simp] theorem State.endBurst_mem : s.endBurst.mem = s.mem := rfl
@[simp] theorem State.endBurst_host : s.endBurst.host = s.host := rfl
@[simp] theorem State.endBurst_result : s.endBurst.result = s.result := rfl
@[simp] theorem State.endBurst_sched : s.endBurst.sched = s.sched := rfl
@[simp] theorem State.endBurst_turn : s.endBurst.turn = s.turn := rfl

/-! ### `latch` -/

@[simp] theorem State.latch_slots (d : Desc) (p : Phase) : (s.latch d p).slots = s.slots := rfl
@[simp] theorem State.latch_slotWritten (d : Desc) (p : Phase) : (s.latch d p).slotWritten = s.slotWritten := rfl
@[simp] theorem State.latch_busy (d : Desc) (p : Phase) : (s.latch d p).busy = s.busy := rfl
@[simp] theorem State.latch_len (d : Desc) (p : Phase) : (s.latch d p).len = s.len := rfl
@[simp] theorem State.latch_lenWritten (d : Desc) (p : Phase) : (s.latch d p).lenWritten = s.lenWritten := rfl
@[simp] theorem State.latch_inflight (d : Desc) (p : Phase) : (s.latch d p).inflight = s.inflight := rfl
@[simp] theorem State.latch_tx (d : Desc) (p : Phase) : (s.latch d p).tx = s.tx := rfl
@[simp] theorem State.latch_desc (d : Desc) (p : Phase) : (s.latch d p).desc = d := rfl
@[simp] theorem State.latch_phase (d : Desc) (p : Phase) : (s.latch d p).phase = p := rfl
@[simp] theorem State.latch_rem (d : Desc) (p : Phase) : (s.latch d p).rem = s.rem := rfl
@[simp] theorem State.latch_full (d : Desc) (p : Phase) : (s.latch d p).full = s.full := rfl
@[simp] theorem State.latch_ptr (d : Desc) (p : Phase) : (s.latch d p).ptr = s.ptr := rfl
@[simp] theorem State.latch_idx (d : Desc) (p : Phase) : (s.latch d p).idx = s.idx := rfl
@[simp] theorem State.latch_fw (d : Desc) (p : Phase) : (s.latch d p).fw = s.fw := rfl
@[simp] theorem State.latch_params (d : Desc) (p : Phase) : (s.latch d p).params = s.params := rfl
@[simp] theorem State.latch_mem (d : Desc) (p : Phase) : (s.latch d p).mem = s.mem := rfl
@[simp] theorem State.latch_host (d : Desc) (p : Phase) : (s.latch d p).host = s.host := rfl
@[simp] theorem State.latch_result (d : Desc) (p : Phase) : (s.latch d p).result = s.result := rfl
@[simp] theorem State.latch_sched (d : Desc) (p : Phase) : (s.latch d p).sched = s.sched := rfl
@[simp] theorem State.latch_turn (d : Desc) (p : Phase) : (s.latch d p).turn = s.turn := rfl

/-! ### `setPhase` -/

@[simp] theorem State.setPhase_slots (p : Phase) : (s.setPhase p).slots = s.slots := rfl
@[simp] theorem State.setPhase_slotWritten (p : Phase) : (s.setPhase p).slotWritten = s.slotWritten := rfl
@[simp] theorem State.setPhase_busy (p : Phase) : (s.setPhase p).busy = s.busy := rfl
@[simp] theorem State.setPhase_len (p : Phase) : (s.setPhase p).len = s.len := rfl
@[simp] theorem State.setPhase_lenWritten (p : Phase) : (s.setPhase p).lenWritten = s.lenWritten := rfl
@[simp] theorem State.setPhase_inflight (p : Phase) : (s.setPhase p).inflight = s.inflight := rfl
@[simp] theorem State.setPhase_tx (p : Phase) : (s.setPhase p).tx = s.tx := rfl
@[simp] theorem State.setPhase_desc (p : Phase) : (s.setPhase p).desc = s.desc := rfl
@[simp] theorem State.setPhase_phase (p : Phase) : (s.setPhase p).phase = p := rfl
@[simp] theorem State.setPhase_rem (p : Phase) : (s.setPhase p).rem = s.rem := rfl
@[simp] theorem State.setPhase_full (p : Phase) : (s.setPhase p).full = s.full := rfl
@[simp] theorem State.setPhase_ptr (p : Phase) : (s.setPhase p).ptr = s.ptr := rfl
@[simp] theorem State.setPhase_idx (p : Phase) : (s.setPhase p).idx = s.idx := rfl
@[simp] theorem State.setPhase_fw (p : Phase) : (s.setPhase p).fw = s.fw := rfl
@[simp] theorem State.setPhase_params (p : Phase) : (s.setPhase p).params = s.params := rfl
@[simp] theorem State.setPhase_mem (p : Phase) : (s.setPhase p).mem = s.mem := rfl
@[simp] theorem State.setPhase_host (p : Phase) : (s.setPhase p).host = s.host := rfl
@[simp] theorem State.setPhase_result (p : Phase) : (s.setPhase p).result = s.result := rfl
@[simp] theorem State.setPhase_sched (p : Phase) : (s.setPhase p).sched = s.sched := rfl
@[simp] theorem State.setPhase_turn (p : Phase) : (s.setPhase p).turn = s.turn := rfl

/-! ### `setRem` -/

@[simp] theorem State.setRem_slots (v : Word) : (s.setRem v).slots = s.slots := rfl
@[simp] theorem State.setRem_slotWritten (v : Word) : (s.setRem v).slotWritten = s.slotWritten := rfl
@[simp] theorem State.setRem_busy (v : Word) : (s.setRem v).busy = s.busy := rfl
@[simp] theorem State.setRem_len (v : Word) : (s.setRem v).len = s.len := rfl
@[simp] theorem State.setRem_lenWritten (v : Word) : (s.setRem v).lenWritten = s.lenWritten := rfl
@[simp] theorem State.setRem_inflight (v : Word) : (s.setRem v).inflight = s.inflight := rfl
@[simp] theorem State.setRem_tx (v : Word) : (s.setRem v).tx = s.tx := rfl
@[simp] theorem State.setRem_desc (v : Word) : (s.setRem v).desc = s.desc := rfl
@[simp] theorem State.setRem_phase (v : Word) : (s.setRem v).phase = s.phase := rfl
@[simp] theorem State.setRem_rem (v : Word) : (s.setRem v).rem = v := rfl
@[simp] theorem State.setRem_full (v : Word) : (s.setRem v).full = s.full := rfl
@[simp] theorem State.setRem_ptr (v : Word) : (s.setRem v).ptr = s.ptr := rfl
@[simp] theorem State.setRem_idx (v : Word) : (s.setRem v).idx = s.idx := rfl
@[simp] theorem State.setRem_fw (v : Word) : (s.setRem v).fw = s.fw := rfl
@[simp] theorem State.setRem_params (v : Word) : (s.setRem v).params = s.params := rfl
@[simp] theorem State.setRem_mem (v : Word) : (s.setRem v).mem = s.mem := rfl
@[simp] theorem State.setRem_host (v : Word) : (s.setRem v).host = s.host := rfl
@[simp] theorem State.setRem_result (v : Word) : (s.setRem v).result = s.result := rfl
@[simp] theorem State.setRem_sched (v : Word) : (s.setRem v).sched = s.sched := rfl
@[simp] theorem State.setRem_turn (v : Word) : (s.setRem v).turn = s.turn := rfl

/-! ### `setFull` -/

@[simp] theorem State.setFull_slots (v : Word) : (s.setFull v).slots = s.slots := rfl
@[simp] theorem State.setFull_slotWritten (v : Word) : (s.setFull v).slotWritten = s.slotWritten := rfl
@[simp] theorem State.setFull_busy (v : Word) : (s.setFull v).busy = s.busy := rfl
@[simp] theorem State.setFull_len (v : Word) : (s.setFull v).len = s.len := rfl
@[simp] theorem State.setFull_lenWritten (v : Word) : (s.setFull v).lenWritten = s.lenWritten := rfl
@[simp] theorem State.setFull_inflight (v : Word) : (s.setFull v).inflight = s.inflight := rfl
@[simp] theorem State.setFull_tx (v : Word) : (s.setFull v).tx = s.tx := rfl
@[simp] theorem State.setFull_desc (v : Word) : (s.setFull v).desc = s.desc := rfl
@[simp] theorem State.setFull_phase (v : Word) : (s.setFull v).phase = s.phase := rfl
@[simp] theorem State.setFull_rem (v : Word) : (s.setFull v).rem = s.rem := rfl
@[simp] theorem State.setFull_full (v : Word) : (s.setFull v).full = v := rfl
@[simp] theorem State.setFull_ptr (v : Word) : (s.setFull v).ptr = s.ptr := rfl
@[simp] theorem State.setFull_idx (v : Word) : (s.setFull v).idx = s.idx := rfl
@[simp] theorem State.setFull_fw (v : Word) : (s.setFull v).fw = s.fw := rfl
@[simp] theorem State.setFull_params (v : Word) : (s.setFull v).params = s.params := rfl
@[simp] theorem State.setFull_mem (v : Word) : (s.setFull v).mem = s.mem := rfl
@[simp] theorem State.setFull_host (v : Word) : (s.setFull v).host = s.host := rfl
@[simp] theorem State.setFull_result (v : Word) : (s.setFull v).result = s.result := rfl
@[simp] theorem State.setFull_sched (v : Word) : (s.setFull v).sched = s.sched := rfl
@[simp] theorem State.setFull_turn (v : Word) : (s.setFull v).turn = s.turn := rfl

/-! ### `setPtr` -/

@[simp] theorem State.setPtr_slots (v : Word) : (s.setPtr v).slots = s.slots := rfl
@[simp] theorem State.setPtr_slotWritten (v : Word) : (s.setPtr v).slotWritten = s.slotWritten := rfl
@[simp] theorem State.setPtr_busy (v : Word) : (s.setPtr v).busy = s.busy := rfl
@[simp] theorem State.setPtr_len (v : Word) : (s.setPtr v).len = s.len := rfl
@[simp] theorem State.setPtr_lenWritten (v : Word) : (s.setPtr v).lenWritten = s.lenWritten := rfl
@[simp] theorem State.setPtr_inflight (v : Word) : (s.setPtr v).inflight = s.inflight := rfl
@[simp] theorem State.setPtr_tx (v : Word) : (s.setPtr v).tx = s.tx := rfl
@[simp] theorem State.setPtr_desc (v : Word) : (s.setPtr v).desc = s.desc := rfl
@[simp] theorem State.setPtr_phase (v : Word) : (s.setPtr v).phase = s.phase := rfl
@[simp] theorem State.setPtr_rem (v : Word) : (s.setPtr v).rem = s.rem := rfl
@[simp] theorem State.setPtr_full (v : Word) : (s.setPtr v).full = s.full := rfl
@[simp] theorem State.setPtr_ptr (v : Word) : (s.setPtr v).ptr = v := rfl
@[simp] theorem State.setPtr_idx (v : Word) : (s.setPtr v).idx = s.idx := rfl
@[simp] theorem State.setPtr_fw (v : Word) : (s.setPtr v).fw = s.fw := rfl
@[simp] theorem State.setPtr_params (v : Word) : (s.setPtr v).params = s.params := rfl
@[simp] theorem State.setPtr_mem (v : Word) : (s.setPtr v).mem = s.mem := rfl
@[simp] theorem State.setPtr_host (v : Word) : (s.setPtr v).host = s.host := rfl
@[simp] theorem State.setPtr_result (v : Word) : (s.setPtr v).result = s.result := rfl
@[simp] theorem State.setPtr_sched (v : Word) : (s.setPtr v).sched = s.sched := rfl
@[simp] theorem State.setPtr_turn (v : Word) : (s.setPtr v).turn = s.turn := rfl

/-! ### `setIdx` -/

@[simp] theorem State.setIdx_slots (v : Idx) : (s.setIdx v).slots = s.slots := rfl
@[simp] theorem State.setIdx_slotWritten (v : Idx) : (s.setIdx v).slotWritten = s.slotWritten := rfl
@[simp] theorem State.setIdx_busy (v : Idx) : (s.setIdx v).busy = s.busy := rfl
@[simp] theorem State.setIdx_len (v : Idx) : (s.setIdx v).len = s.len := rfl
@[simp] theorem State.setIdx_lenWritten (v : Idx) : (s.setIdx v).lenWritten = s.lenWritten := rfl
@[simp] theorem State.setIdx_inflight (v : Idx) : (s.setIdx v).inflight = s.inflight := rfl
@[simp] theorem State.setIdx_tx (v : Idx) : (s.setIdx v).tx = s.tx := rfl
@[simp] theorem State.setIdx_desc (v : Idx) : (s.setIdx v).desc = s.desc := rfl
@[simp] theorem State.setIdx_phase (v : Idx) : (s.setIdx v).phase = s.phase := rfl
@[simp] theorem State.setIdx_rem (v : Idx) : (s.setIdx v).rem = s.rem := rfl
@[simp] theorem State.setIdx_full (v : Idx) : (s.setIdx v).full = s.full := rfl
@[simp] theorem State.setIdx_ptr (v : Idx) : (s.setIdx v).ptr = s.ptr := rfl
@[simp] theorem State.setIdx_idx (v : Idx) : (s.setIdx v).idx = v := rfl
@[simp] theorem State.setIdx_fw (v : Idx) : (s.setIdx v).fw = s.fw := rfl
@[simp] theorem State.setIdx_params (v : Idx) : (s.setIdx v).params = s.params := rfl
@[simp] theorem State.setIdx_mem (v : Idx) : (s.setIdx v).mem = s.mem := rfl
@[simp] theorem State.setIdx_host (v : Idx) : (s.setIdx v).host = s.host := rfl
@[simp] theorem State.setIdx_result (v : Idx) : (s.setIdx v).result = s.result := rfl
@[simp] theorem State.setIdx_sched (v : Idx) : (s.setIdx v).sched = s.sched := rfl
@[simp] theorem State.setIdx_turn (v : Idx) : (s.setIdx v).turn = s.turn := rfl

/-! ### `setFw` -/

@[simp] theorem State.setFw_slots (v : Word) : (s.setFw v).slots = s.slots := rfl
@[simp] theorem State.setFw_slotWritten (v : Word) : (s.setFw v).slotWritten = s.slotWritten := rfl
@[simp] theorem State.setFw_busy (v : Word) : (s.setFw v).busy = s.busy := rfl
@[simp] theorem State.setFw_len (v : Word) : (s.setFw v).len = s.len := rfl
@[simp] theorem State.setFw_lenWritten (v : Word) : (s.setFw v).lenWritten = s.lenWritten := rfl
@[simp] theorem State.setFw_inflight (v : Word) : (s.setFw v).inflight = s.inflight := rfl
@[simp] theorem State.setFw_tx (v : Word) : (s.setFw v).tx = s.tx := rfl
@[simp] theorem State.setFw_desc (v : Word) : (s.setFw v).desc = s.desc := rfl
@[simp] theorem State.setFw_phase (v : Word) : (s.setFw v).phase = s.phase := rfl
@[simp] theorem State.setFw_rem (v : Word) : (s.setFw v).rem = s.rem := rfl
@[simp] theorem State.setFw_full (v : Word) : (s.setFw v).full = s.full := rfl
@[simp] theorem State.setFw_ptr (v : Word) : (s.setFw v).ptr = s.ptr := rfl
@[simp] theorem State.setFw_idx (v : Word) : (s.setFw v).idx = s.idx := rfl
@[simp] theorem State.setFw_fw (v : Word) : (s.setFw v).fw = v := rfl
@[simp] theorem State.setFw_params (v : Word) : (s.setFw v).params = s.params := rfl
@[simp] theorem State.setFw_mem (v : Word) : (s.setFw v).mem = s.mem := rfl
@[simp] theorem State.setFw_host (v : Word) : (s.setFw v).host = s.host := rfl
@[simp] theorem State.setFw_result (v : Word) : (s.setFw v).result = s.result := rfl
@[simp] theorem State.setFw_sched (v : Word) : (s.setFw v).sched = s.sched := rfl
@[simp] theorem State.setFw_turn (v : Word) : (s.setFw v).turn = s.turn := rfl

/-! ### `setMem` -/

@[simp] theorem State.setMem_slots (m : Memory) : (s.setMem m).slots = s.slots := rfl
@[simp] theorem State.setMem_slotWritten (m : Memory) : (s.setMem m).slotWritten = s.slotWritten := rfl
@[simp] theorem State.setMem_busy (m : Memory) : (s.setMem m).busy = s.busy := rfl
@[simp] theorem State.setMem_len (m : Memory) : (s.setMem m).len = s.len := rfl
@[simp] theorem State.setMem_lenWritten (m : Memory) : (s.setMem m).lenWritten = s.lenWritten := rfl
@[simp] theorem State.setMem_inflight (m : Memory) : (s.setMem m).inflight = s.inflight := rfl
@[simp] theorem State.setMem_tx (m : Memory) : (s.setMem m).tx = s.tx := rfl
@[simp] theorem State.setMem_desc (m : Memory) : (s.setMem m).desc = s.desc := rfl
@[simp] theorem State.setMem_phase (m : Memory) : (s.setMem m).phase = s.phase := rfl
@[simp] theorem State.setMem_rem (m : Memory) : (s.setMem m).rem = s.rem := rfl
@[simp] theorem State.setMem_full (m : Memory) : (s.setMem m).full = s.full := rfl
@[simp] theorem State.setMem_ptr (m : Memory) : (s.setMem m).ptr = s.ptr := rfl
@[simp] theorem State.setMem_idx (m : Memory) : (s.setMem m).idx = s.idx := rfl
@[simp] theorem State.setMem_fw (m : Memory) : (s.setMem m).fw = s.fw := rfl
@[simp] theorem State.setMem_params (m : Memory) : (s.setMem m).params = s.params := rfl
@[simp] theorem State.setMem_mem (m : Memory) : (s.setMem m).mem = m := rfl
@[simp] theorem State.setMem_host (m : Memory) : (s.setMem m).host = s.host := rfl
@[simp] theorem State.setMem_result (m : Memory) : (s.setMem m).result = s.result := rfl
@[simp] theorem State.setMem_sched (m : Memory) : (s.setMem m).sched = s.sched := rfl
@[simp] theorem State.setMem_turn (m : Memory) : (s.setMem m).turn = s.turn := rfl

/-! ### `setHost` -/

@[simp] theorem State.setHost_slots (h : List HostAct) : (s.setHost h).slots = s.slots := rfl
@[simp] theorem State.setHost_slotWritten (h : List HostAct) : (s.setHost h).slotWritten = s.slotWritten := rfl
@[simp] theorem State.setHost_busy (h : List HostAct) : (s.setHost h).busy = s.busy := rfl
@[simp] theorem State.setHost_len (h : List HostAct) : (s.setHost h).len = s.len := rfl
@[simp] theorem State.setHost_lenWritten (h : List HostAct) : (s.setHost h).lenWritten = s.lenWritten := rfl
@[simp] theorem State.setHost_inflight (h : List HostAct) : (s.setHost h).inflight = s.inflight := rfl
@[simp] theorem State.setHost_tx (h : List HostAct) : (s.setHost h).tx = s.tx := rfl
@[simp] theorem State.setHost_desc (h : List HostAct) : (s.setHost h).desc = s.desc := rfl
@[simp] theorem State.setHost_phase (h : List HostAct) : (s.setHost h).phase = s.phase := rfl
@[simp] theorem State.setHost_rem (h : List HostAct) : (s.setHost h).rem = s.rem := rfl
@[simp] theorem State.setHost_full (h : List HostAct) : (s.setHost h).full = s.full := rfl
@[simp] theorem State.setHost_ptr (h : List HostAct) : (s.setHost h).ptr = s.ptr := rfl
@[simp] theorem State.setHost_idx (h : List HostAct) : (s.setHost h).idx = s.idx := rfl
@[simp] theorem State.setHost_fw (h : List HostAct) : (s.setHost h).fw = s.fw := rfl
@[simp] theorem State.setHost_params (h : List HostAct) : (s.setHost h).params = s.params := rfl
@[simp] theorem State.setHost_mem (h : List HostAct) : (s.setHost h).mem = s.mem := rfl
@[simp] theorem State.setHost_host (h : List HostAct) : (s.setHost h).host = h := rfl
@[simp] theorem State.setHost_result (h : List HostAct) : (s.setHost h).result = s.result := rfl
@[simp] theorem State.setHost_sched (h : List HostAct) : (s.setHost h).sched = s.sched := rfl
@[simp] theorem State.setHost_turn (h : List HostAct) : (s.setHost h).turn = s.turn := rfl

/-! ### `setResult` -/

@[simp] theorem State.setResult_slots (v : Word) : (s.setResult v).slots = s.slots := rfl
@[simp] theorem State.setResult_slotWritten (v : Word) : (s.setResult v).slotWritten = s.slotWritten := rfl
@[simp] theorem State.setResult_busy (v : Word) : (s.setResult v).busy = s.busy := rfl
@[simp] theorem State.setResult_len (v : Word) : (s.setResult v).len = s.len := rfl
@[simp] theorem State.setResult_lenWritten (v : Word) : (s.setResult v).lenWritten = s.lenWritten := rfl
@[simp] theorem State.setResult_inflight (v : Word) : (s.setResult v).inflight = s.inflight := rfl
@[simp] theorem State.setResult_tx (v : Word) : (s.setResult v).tx = s.tx := rfl
@[simp] theorem State.setResult_desc (v : Word) : (s.setResult v).desc = s.desc := rfl
@[simp] theorem State.setResult_phase (v : Word) : (s.setResult v).phase = s.phase := rfl
@[simp] theorem State.setResult_rem (v : Word) : (s.setResult v).rem = s.rem := rfl
@[simp] theorem State.setResult_full (v : Word) : (s.setResult v).full = s.full := rfl
@[simp] theorem State.setResult_ptr (v : Word) : (s.setResult v).ptr = s.ptr := rfl
@[simp] theorem State.setResult_idx (v : Word) : (s.setResult v).idx = s.idx := rfl
@[simp] theorem State.setResult_fw (v : Word) : (s.setResult v).fw = s.fw := rfl
@[simp] theorem State.setResult_params (v : Word) : (s.setResult v).params = s.params := rfl
@[simp] theorem State.setResult_mem (v : Word) : (s.setResult v).mem = s.mem := rfl
@[simp] theorem State.setResult_host (v : Word) : (s.setResult v).host = s.host := rfl
@[simp] theorem State.setResult_result (v : Word) : (s.setResult v).result = v := rfl
@[simp] theorem State.setResult_sched (v : Word) : (s.setResult v).sched = s.sched := rfl
@[simp] theorem State.setResult_turn (v : Word) : (s.setResult v).turn = s.turn := rfl

/-! ### `setSched` -/

@[simp] theorem State.setSched_slots (l : List Agent) (n : Nat) : (s.setSched l n).slots = s.slots := rfl
@[simp] theorem State.setSched_slotWritten (l : List Agent) (n : Nat) : (s.setSched l n).slotWritten = s.slotWritten := rfl
@[simp] theorem State.setSched_busy (l : List Agent) (n : Nat) : (s.setSched l n).busy = s.busy := rfl
@[simp] theorem State.setSched_len (l : List Agent) (n : Nat) : (s.setSched l n).len = s.len := rfl
@[simp] theorem State.setSched_lenWritten (l : List Agent) (n : Nat) : (s.setSched l n).lenWritten = s.lenWritten := rfl
@[simp] theorem State.setSched_inflight (l : List Agent) (n : Nat) : (s.setSched l n).inflight = s.inflight := rfl
@[simp] theorem State.setSched_tx (l : List Agent) (n : Nat) : (s.setSched l n).tx = s.tx := rfl
@[simp] theorem State.setSched_desc (l : List Agent) (n : Nat) : (s.setSched l n).desc = s.desc := rfl
@[simp] theorem State.setSched_phase (l : List Agent) (n : Nat) : (s.setSched l n).phase = s.phase := rfl
@[simp] theorem State.setSched_rem (l : List Agent) (n : Nat) : (s.setSched l n).rem = s.rem := rfl
@[simp] theorem State.setSched_full (l : List Agent) (n : Nat) : (s.setSched l n).full = s.full := rfl
@[simp] theorem State.setSched_ptr (l : List Agent) (n : Nat) : (s.setSched l n).ptr = s.ptr := rfl
@[simp] theorem State.setSched_idx (l : List Agent) (n : Nat) : (s.setSched l n).idx = s.idx := rfl
@[simp] theorem State.setSched_fw (l : List Agent) (n : Nat) : (s.setSched l n).fw = s.fw := rfl
@[simp] theorem State.setSched_params (l : List Agent) (n : Nat) : (s.setSched l n).params = s.params := rfl
@[simp] theorem State.setSched_mem (l : List Agent) (n : Nat) : (s.setSched l n).mem = s.mem := rfl
@[simp] theorem State.setSched_host (l : List Agent) (n : Nat) : (s.setSched l n).host = s.host := rfl
@[simp] theorem State.setSched_result (l : List Agent) (n : Nat) : (s.setSched l n).result = s.result := rfl
@[simp] theorem State.setSched_sched (l : List Agent) (n : Nat) : (s.setSched l n).sched = l := rfl
@[simp] theorem State.setSched_turn (l : List Agent) (n : Nat) : (s.setSched l n).turn = n := rfl

/-! ### `resetBlock` -/

@[simp] theorem State.resetBlock_slots : s.resetBlock.slots = State.reset.slots := rfl
@[simp] theorem State.resetBlock_slotWritten : s.resetBlock.slotWritten = State.reset.slotWritten := rfl
@[simp] theorem State.resetBlock_busy : s.resetBlock.busy = State.reset.busy := rfl
@[simp] theorem State.resetBlock_len : s.resetBlock.len = State.reset.len := rfl
@[simp] theorem State.resetBlock_lenWritten : s.resetBlock.lenWritten = State.reset.lenWritten := rfl
@[simp] theorem State.resetBlock_inflight : s.resetBlock.inflight = State.reset.inflight := rfl
@[simp] theorem State.resetBlock_tx : s.resetBlock.tx = State.reset.tx := rfl
@[simp] theorem State.resetBlock_desc : s.resetBlock.desc = State.reset.desc := rfl
@[simp] theorem State.resetBlock_phase : s.resetBlock.phase = State.reset.phase := rfl
@[simp] theorem State.resetBlock_rem : s.resetBlock.rem = State.reset.rem := rfl
@[simp] theorem State.resetBlock_full : s.resetBlock.full = State.reset.full := rfl
@[simp] theorem State.resetBlock_ptr : s.resetBlock.ptr = State.reset.ptr := rfl
@[simp] theorem State.resetBlock_idx : s.resetBlock.idx = State.reset.idx := rfl
@[simp] theorem State.resetBlock_fw : s.resetBlock.fw = State.reset.fw := rfl
@[simp] theorem State.resetBlock_params : s.resetBlock.params = s.params := rfl
@[simp] theorem State.resetBlock_mem : s.resetBlock.mem = s.mem := rfl
@[simp] theorem State.resetBlock_host : s.resetBlock.host = s.host := rfl
@[simp] theorem State.resetBlock_result : s.resetBlock.result = s.result := rfl
@[simp] theorem State.resetBlock_sched : s.resetBlock.sched = s.sched := rfl
@[simp] theorem State.resetBlock_turn : s.resetBlock.turn = s.turn := rfl

end Sys2Proof.Machine
end

