-- ==== Sys2Proof/Laws/Ops.lean ====
section
/-! SUPPORT. What each shared operation can answer, said once: proofs cite these and do not unfold the operations. -/

namespace Sys2Proof.Machine

/-! ### Plumbing -/

@[simp] theorem mapNext_next (s : State) (f : State → State) : mapNext (.next s) f = .next (f s) := rfl

theorem mapNext_eq_next {o : Result} {f : State → State} {t : State} :
    mapNext o f = .next t ↔ ∃ u, o = .next u ∧ t = f u := by
  cases o <;> simp [mapNext, eq_comm]

theorem mapNext_eq_fault {o : Result} {f : State → State} {e : Fault} :
    mapNext o f = .fault e ↔ o = .fault e := by
  cases o <;> simp [mapNext]

theorem mapNext_eq_refused {o : Result} {f : State → State} {r : Refusal} :
    mapNext o f = .refused r ↔ o = .refused r := by
  cases o <;> simp [mapNext]

theorem onSerial_serial {s : State} (o : Result) (h : s.params.busMode = .serial) : onSerial s o = o := by
  simp [onSerial, h]

theorem onSerial_eq_next {s t : State} {o : Result} :
    onSerial s o = .next t ↔ s.params.busMode = .serial ∧ o = .next t := by
  unfold onSerial; cases s.params.busMode <;> simp

theorem onSerial_eq_fault {s : State} {o : Result} {e : Fault} :
    onSerial s o = .fault e ↔ s.params.busMode = .serial ∧ o = .fault e := by
  unfold onSerial; cases s.params.busMode <;> simp

theorem hostOwned_eq_next {s t : State} {o : Result} :
    hostOwned s o = .next t ↔ s.phase = .idle ∧ o = .next t := by
  unfold hostOwned; split <;> simp_all

/-! ### Micro-operations -/

theorem opSetLen_eq_next {v : Len} {s t : State} :
    opSetLen v s = .next t ↔ s.busy = false ∧ t = s.writeLen v := by
  unfold opSetLen; split <;> rename_i h <;> simp [h, eq_comm]

theorem opWrSlot_eq_next {i : BitVec 4} {w : Word} {s t : State} :
    opWrSlot i w s = .next t ↔ s.busy = false ∧ t = s.writeSlot i w := by
  unfold opWrSlot; split <;> rename_i h <;> simp [h, eq_comm]

theorem opWrSlotAt_eq_next {i : Idx} {w : Word} {s t : State} :
    opWrSlotAt i w s = .next t ↔ i.toNat < 16 ∧ s.busy = false ∧ t = s.writeSlot (i.setWidth 4) w := by
  unfold opWrSlotAt; split <;> simp_all [opWrSlot_eq_next]

theorem opStart_eq_next {s t : State} :
    opStart s = .next t ↔ s.busy = false ∧ startable s = true ∧ t = s.beginBurst := by
  unfold opStart; split
  · simp_all
  · split <;> rename_i h1 h2 <;> simp [h1, h2, eq_comm]

theorem opIssue_eq_next {d : Desc} {p : Phase} {s t : State} :
    opIssue d p s = .next t ↔ s.phase = .idle ∧ t = s.latch d p := by
  unfold opIssue; split <;> rename_i h <;> simp [h, eq_comm]

theorem opBurst_eq_next {s t : State} :
    opBurst s = .next t ↔ t = if s.busy then s.endBurst else s := by
  unfold opBurst; split <;> simp [eq_comm]

/-! ### The slots -/

/-- Read after write of a slot. -/
theorem writeSlot_slots_get (s : State) (i : BitVec 4) (w : Word) (j : Nat) (hj : j < 16) :
    (s.writeSlot i w).slots[j] = if i.toNat = j then w else s.slots[j] := by
  simp [Vector.getElem_set]

theorem writeSlot_written_get (s : State) (i : BitVec 4) (w : Word) (j : Nat) (hj : j < 16) :
    (s.writeSlot i w).slotWritten[j] = if i.toNat = j then true else s.slotWritten[j] := by
  simp [Vector.getElem_set]

theorem slotsHeld_iff {s : State} {n : Nat} :
    slotsHeld s n = true ↔ ∀ j, j < n → s.slotWritten[j]? = some true := by
  unfold slotsHeld
  simp only [List.all_eq_true, List.mem_range]
  refine forall_congr' fun j => imp_congr_right fun _ => ?_
  cases h : s.slotWritten[j]? with
  | none => simp
  | some b => simp

theorem slotsHeld_congr {s t : State} (h : s.slotWritten = t.slotWritten) (n : Nat) :
    slotsHeld s n = slotsHeld t n := by
  unfold slotsHeld; rw [h]

theorem slotsHeld_mono {s : State} {m n : Nat} (h : slotsHeld s n = true) (hmn : m ≤ n) : slotsHeld s m = true :=
  slotsHeld_iff.2 fun j hj => slotsHeld_iff.1 h j (lt_of_lt_of_le hj hmn)

theorem slotsHeld_zero (s : State) : slotsHeld s 0 = true := rfl

/-- A WRSLOT to slot `n` after slots 0 to `n - 1` leaves slots 0 to `n` written. -/
theorem slotsHeld_writeSlot_succ {s : State} {i : BitVec 4} (w : Word) (h : slotsHeld s i.toNat = true) :
    slotsHeld (s.writeSlot i w) (i.toNat + 1) = true := by
  refine slotsHeld_iff.2 fun j hj => ?_
  have h16 : j < 16 := lt_of_lt_of_le hj i.isLt
  rw [Vector.getElem?_eq_getElem h16, writeSlot_written_get _ _ _ _ h16]
  rcases Nat.lt_succ_iff_lt_or_eq.1 hj with hlt | heq
  · have := slotsHeld_iff.1 h j hlt
    rw [Vector.getElem?_eq_getElem h16] at this
    simp_all
  · simp [heq]

theorem startable_iff {s : State} :
    startable s = true ↔ s.lenWritten = true ∧ slotsHeld s (s.len.toNat / 32 + 1) = true := by
  simp [startable]

/-! ### The bus -/

@[simp] theorem payload_length (len : Len) (x : Vector Word 16) : (payload len x).length = len.toNat + 1 := by
  simp [payload]

theorem payload_ne_nil (len : Len) (x : Vector Word 16) : payload len x ≠ [] :=
  List.ne_nil_of_length_pos (by simp)

end Sys2Proof.Machine
end

