-- ==== Sys2Proof/Laws/PerInstr.lean ====
section
/-! SUPPORT. The family TableRow: the word the encoder gives an instruction matches its row of spec/opcode_table.json
(R74, R75). -/

namespace Sys2Proof.Laws.TableRow

/-- The bits of a port's word under a mask are the row's match value. -/
def Matches : PortWord → Nat → Nat → Prop
  | .desc96 d, mask, value => d &&& BitVec.ofNat 96 mask = BitVec.ofNat 96 value
  | .uop40 u, mask, value => u &&& BitVec.ofNat 40 mask = BitVec.ofNat 40 value
  | .pseudo, mask, value => mask = 0 ∧ value = 0

/-- The mask and the match of the instruction's row; the no-operation `.start false` differs from START's row in
bit 0 only (R77), and WAITIDLE has no bits (R80). -/
def Statement : Instr → Prop
  | .fill c n => Matches (encode (.fill c n)) 0xFFFF000000000000FFFFFFFF 0
  | .wrpix a n => Matches (encode (.wrpix a n)) 0xFFFFFFFF0000000000000000 0x800000000000000000000000
  | .wrpixs a n => Matches (encode (.wrpixs a n)) 0xFFFFFFFF0000000000000000 0xC00000000000000000000000
  | .rdbusy => Matches (encode .rdbusy) 0xFFFFFFFFFF 0
  | .start go => Matches (encode (.start go)) 0xFF00000001 (0x8400000000 + go.toNat)
  | .setlen v => Matches (encode (.setlen v)) 0xFF00000000 0x8800000000
  | .wrslot i w => Matches (encode (.wrslot i w)) 0xC300000000 0xC000000000
  | .waitidle => Matches (encode .waitidle) 0 0

theorem fill (c : Pixel) (n : Word) : Statement (.fill c n) := by
  show encodeDesc false false c n 0 &&& _ = _
  ext i hi
  simp only [encodeDesc, BitVec.getElem_and, BitVec.getElem_append]
  interval_cases i <;> simp

theorem wrpix (a n : Word) : Statement (.wrpix a n) := by
  show encodeDesc true false 0 n a &&& _ = _
  ext i hi
  simp only [encodeDesc, BitVec.getElem_and, BitVec.getElem_append]
  interval_cases i <;> simp

theorem wrpixs (a n : Word) : Statement (.wrpixs a n) := by
  show encodeDesc true true 0 n a &&& _ = _
  ext i hi
  simp only [encodeDesc, BitVec.getElem_and, BitVec.getElem_append]
  interval_cases i <;> simp

theorem rdbusy : Statement .rdbusy := by
  show encodeUop false 0x00#7 0 &&& _ = _
  decide

theorem start (go : Bool) : Statement (.start go) := by
  show encodeUop true 0x04#7 _ &&& _ = _
  cases go <;> decide

theorem setlen (v : Len) : Statement (.setlen v) := by
  show encodeUop true 0x08#7 _ &&& _ = _
  ext i hi
  simp only [encodeUop, BitVec.getElem_and, BitVec.getElem_append]
  interval_cases i <;> simp

theorem wrslot (i : BitVec 4) (w : Word) : Statement (.wrslot i w) := by
  show encodeUop true (1#1 ++ i ++ 0#2) w &&& _ = _
  ext k hk
  simp only [encodeUop, BitVec.getElem_and, BitVec.getElem_append]
  interval_cases k <;> simp

theorem waitidle : Statement .waitidle := ⟨rfl, rfl⟩

end Sys2Proof.Laws.TableRow
end

