-- ==== Sys2Proof/Laws/Rows.lean ====
section
/-! SUPPORT. What each kind of row of the phase tables can answer, and what one step of the machine can be. -/

namespace Sys2Proof.Machine

theorem waitRow_eq_next {p : Phase} {s t : State} :
    waitRow p s = .next t ↔ t = if s.busy then s else s.setPhase p := by
  unfold waitRow; split <;> simp [eq_comm]

theorem lenRow_eq_next {v : Len} {p : Phase} {s t : State} :
    lenRow v p s = .next t ↔ s.busy = false ∧ t = (s.writeLen v).setPhase p := by
  simp [lenRow, mapNext_eq_next, opSetLen_eq_next, and_assoc]

theorem lenRow0_eq_next {v : Len} {p : Phase} {s t : State} :
    lenRow0 v p s = .next t ↔ s.busy = false ∧ t = ((s.writeLen v).setIdx 0).setPhase p := by
  simp [lenRow0, mapNext_eq_next, opSetLen_eq_next, and_assoc]

theorem slotRow_eq_next {w : Word} {n : Nat} {p q : Phase} {s t : State} :
    slotRow w n p q s = .next t ↔ s.idx.toNat < 16 ∧ s.busy = false ∧
      t = ((s.writeSlot (s.idx.setWidth 4) w).setIdx (s.idx + 1)).setPhase (if (s.idx + 1).toNat < n then p else q) := by
  simp [slotRow, mapNext_eq_next, opWrSlotAt_eq_next, and_assoc]

theorem loadRow_eq_next {w : Option Word} {k : Word} {n : Nat} {p q : Phase} {s t : State} :
    loadRow w k n p q s = .next t ↔ ∃ v, w = some v ∧ s.idx.toNat < 16 ∧ s.busy = false ∧
      t = (((s.writeSlot (s.idx.setWidth 4) v).setIdx (s.idx + 1)).setPhase
        (if (s.idx + 1).toNat < n then p else q)).setPtr (s.ptr + k) := by
  cases w <;> simp [loadRow, mapNext_eq_next, slotRow_eq_next, and_assoc]

theorem startRow_eq_next {f : State → State} {s t : State} :
    startRow f s = .next t ↔ s.busy = false ∧ startable s = true ∧ t = f s.beginBurst := by
  simp [startRow, mapNext_eq_next, opStart_eq_next, and_assoc]

/-! ### One step of the machine -/

theorem nextScheduled_enabled {en : Agent → Bool} {l : List Agent} {a : Agent} {r : List Agent}
    (h : nextScheduled en l = some (a, r)) : en a = true := by
  induction l with
  | nil => simp [nextScheduled] at h
  | cons b l ih =>
    unfold nextScheduled at h
    split at h
    · simp_all
    · exact ih h

/-- The agent chosen has a step, and choosing it changes nothing but the schedule. -/
theorem chooseAgent_some {s t : State} {a : Agent} (h : chooseAgent s = some (a, t)) :
    enabled s a = true ∧ ∃ l n, t = s.setSched l n := by
  have hen : ∀ b, b ∈ enabledAgents s → enabled s b = true := fun b hb => (List.mem_filter.1 hb).2
  unfold chooseAgent at h
  split at h
  · simp at h
  · rename_i b hb
    simp only [Option.some.injEq, Prod.mk.injEq] at h
    obtain ⟨rfl, rfl⟩ := h
    exact ⟨hen b (by simp [hb]), s.sched, s.turn, rfl⟩
  · rename_i b c more hb
    simp only [Option.some.injEq] at h
    unfold resolveChoice at h
    split at h
    · rename_i d r hd
      simp only [Prod.mk.injEq] at h
      obtain ⟨rfl, rfl⟩ := h
      exact ⟨nextScheduled_enabled hd, _, _, rfl⟩
    · simp only [Prod.mk.injEq] at h
      obtain ⟨h1, rfl⟩ := h
      refine ⟨?_, _, _, rfl⟩
      have hlt : Config.freeAgent s.turn % (b :: c :: more).length < (b :: c :: more).length :=
        Nat.mod_lt _ (by simp)
      rw [List.getD_eq_getElem _ _ hlt] at h1
      rw [← h1]
      exact hen _ (by rw [hb]; exact List.getElem_mem hlt)

/-- What one step of the machine can be: nothing, where no agent has a step, or one step of an agent that has one. -/
theorem step_eq_next {s t : State} (h : step s = .next t) :
    s.params.busMode = .serial ∧
      (t = s ∨ ∃ a l n, enabled s a = true ∧ agentStep a (s.setSched l n) = .next t) := by
  unfold step machineStep at h
  obtain ⟨hs, h⟩ := onSerial_eq_next.1 h
  refine ⟨hs, ?_⟩
  split at h
  · left; simpa [eq_comm] using h
  · rename_i a u hc
    obtain ⟨he, l, n, rfl⟩ := chooseAgent_some hc
    exact .inr ⟨a, l, n, he, h⟩

end Sys2Proof.Machine
end

