-- ==== Sys2Proof/Laws/Safety.lean ====
section
/-! SUPPORT. The small lemmas of what claims about a run speak of. -/

namespace Sys2Proof.Machine

theorem standing_of_quiet {s : State} (h : quiet s) : standing s := ⟨h.1, h.2.2.2⟩

@[simp] theorem sentSoFar_of_idle {s : State} (h : s.busy = false) : sentSoFar s = s.tx := by simp [sentSoFar, h]

@[simp] theorem sentSoFar_of_busy {s : State} (h : s.busy = true) : sentSoFar s = s.tx ++ s.inflight := by
  simp [sentSoFar, h]

@[simp] theorem sentSoFar_setHost (s : State) (l : List HostAct) : sentSoFar (s.setHost l) = sentSoFar s := rfl

@[simp] theorem sentSoFar_setSched (s : State) (l : List Agent) (n : Nat) : sentSoFar (s.setSched l n) = sentSoFar s := rfl

@[simp] theorem sentSoFar_setPhase (s : State) (p : Phase) : sentSoFar (s.setPhase p) = sentSoFar s := rfl

@[simp] theorem sentSoFar_latch (s : State) (d : Desc) (p : Phase) : sentSoFar (s.latch d p) = sentSoFar s := rfl

/-- Completion of a burst leaves what has been sent and is in flight as it was. -/
theorem sentSoFar_endBurst {s : State} (h : s.busy = true) : sentSoFar s.endBurst = sentSoFar s := by
  simp [sentSoFar, h]

/-- A START adds its burst to what has been sent and is in flight. -/
theorem sentSoFar_beginBurst {s : State} (h : s.busy = false) :
    sentSoFar s.beginBurst = sentSoFar s ++ payload s.len s.slots := by
  simp [sentSoFar, h]

end Sys2Proof.Machine
end

