-- ==== Sys2Proof/Tests/Slice0.lean ====
section
/-! SUPPORT. Tests of the model against the spec's own examples and vectors (spec/95_test_vectors.md), and for every
statement with hypotheses a witness: concrete data that meet all of them. -/

namespace Sys2Proof.Tests

open Sys2Proof Sys2Proof.Machine

/-! ### Small states -/

/-- Reset, with `LEN = len`, `SLOT[0] = w0`, `SLOT[1] = w1` written. -/
def twoSlots (len : Len) (w0 w1 : Word) : State :=
  ((State.reset.writeLen len).writeSlot 0 w0).writeSlot 1 w1

/-- The state after a START from `s`. -/
def started (s : State) : State := s.beginBurst

/-- Twelve readable bytes at 0x100: memory A of the spec, moved. -/
def bytesA : Memory :=
  [(0x100, 0x00), (0x101, 0x00), (0x102, 0xFF), (0x103, 0xFF), (0x104, 0x00), (0x105, 0x00), (0x106, 0xFF),
    (0x107, 0x00), (0x108, 0x00), (0x109, 0xFF), (0x10A, 0xAA), (0x10B, 0x55)]

/-- Reset with these bytes readable. -/
def withBytes : State := State.reset.setMem bytesA

/-- FILL at a phase, `n` pixels of 0xF800. -/
def filling (p : Phase) (n : Word) : State :=
  (State.reset.latch (encodeDesc false false 0xF800 n 0) p)

/-- WRPIX 0x100, 5 at a phase, over memory A. -/
def streaming (p : Phase) : State :=
  (((withBytes.latch (encodeDesc true false 0 5 0x100) p).setRem 5).setPtr 0x100).writeLen 79

/-- WRPIXS 0x100, 5 at a phase, over memory A. -/
def swapping (p : Phase) : State :=
  (((withBytes.latch (encodeDesc true true 0 5 0x100) p).setRem 5).setPtr 0x100).writeLen 79

/-- One word pending at the HOST. -/
def pending (s : State) (i : Instr) : State := asking s (encode i)

/-! ### WellFormed: an ill-formed term for each check, and the terms at its edge (R58) -/

theorem test_wellformed_wrpix_top : ¬ (Instr.wrpix 0xFFFFFFFE 1).WellFormed ∧ (Instr.wrpix 0xFFFFFFFC 1).WellFormed := by
  decide

theorem test_wellformed_wrpixs_top : ¬ (Instr.wrpixs 0xFFFFFFFF 1).WellFormed ∧ (Instr.wrpixs 0xFFFFFFFE 1).WellFormed := by
  decide

theorem test_wellformed_count_zero : (Instr.wrpix 0xFFFFFFFF 0).WellFormed ∧ (Instr.wrpixs 0xFFFFFFFF 0).WellFormed := by
  decide

/-! ### Decoding: words written out bit by bit from R71, R74, R72, R75 -/

/-- V-E1: KIND 0, SWAP 0, fourteen zeros, COLOR 0xF800; COUNT 40; SRC 0. -/
theorem test_decode_fill :
    decodeDesc (descOfWords 0b00000000000000001111100000000000 0b00000000000000000000000000101000 0) =
      .ok (.fill 0xF800 40) := by decide

/-- V-E4: KIND 1, SWAP 0; COUNT 5; SRC 0x20000000. -/
theorem test_decode_wrpix :
    decodeDesc (descOfWords 0b10000000000000000000000000000000 0b00000000000000000000000000000101
      0b00100000000000000000000000000000) = .ok (.wrpix 0x20000000 5) := by decide

/-- V-E5: KIND 1, SWAP 1; COUNT 21; SRC 0x20000100. -/
theorem test_decode_wrpixs :
    decodeDesc (descOfWords 0b11000000000000000000000000000000 0b00000000000000000000000000010101
      0b00100000000000000000000100000000) = .ok (.wrpixs 0x20000100 21) := by decide

/-- V-E6: WR 1, OFF 0001000, DATA 127. -/
theorem test_decode_setlen : decodeUop 0b1000100000000000000000000000000001111111 = .ok (.setlen 127) := by decide

/-- V-E7: WR 1, OFF 1 0011 00, DATA 0x00F800F8. -/
theorem test_decode_wrslot :
    decodeUop 0b1100110000000000111110000000000011111000 = .ok (.wrslot 3 0x00F800F8) := by decide

/-- V-E8: WR 1, OFF 0000100, DATA 1; V-X10: the same with DATA 0. -/
theorem test_decode_start : decodeUop 0b1000010000000000000000000000000000000001 = .ok (.start true) ∧
    decodeUop 0b1000010000000000000000000000000000000000 = .ok (.start false) := by decide

/-- V-E8: all bits 0. -/
theorem test_decode_rdbusy : decodeUop 0b0000000000000000000000000000000000000000 = .ok .rdbusy := by decide

/-- WAITIDLE has no bits (R75, R80). -/
theorem test_decode_waitidle : decodeTableWord 0 0 = some .waitidle := by decide

/-- V-E9, V-E10: ignored bits. -/
theorem test_decode_ignored_bits : decodeUop 0x88FFFFFE7F = .ok (.setlen 127) ∧
    decodeUop 0x84FFFFFFFF = .ok (.start true) := by decide

/-- V-X6, V-X7, V-X8. -/
theorem test_decode_reserved_descriptors :
    decodeDesc (descOfWords 0x4000F800 1 0) = .error .swapWithSolidFill ∧
    decodeDesc (descOfWords 0x00010000 1 0) = .error .reservedBits ∧
    decodeDesc (descOfWords 0x0000F800 1 4) = .error .srcWithSolidFill ∧
    decodeDesc (descOfWords 0x80000001 1 4) = .error .colorWithSequence := by decide

/-- V-X9. -/
theorem test_decode_reserved_accesses :
    decodeUop 0x0400000000 = .error .readOfWriteOnly ∧ decodeUop 0x8C00000000 = .error .reservedOffset ∧
    decodeUop 0xC100000000 = .error .misalignedOffset ∧ decodeUop 0x8000000000 = .error .writeOfStatus ∧
    decodeUop 0x0000000001 = .error .readWithData := by decide

/-- The table's match values, numbered as the table numbers them. -/
theorem test_decode_table_words :
    decodeTableWord 96 0x000000000000000000000000 = some (.fill 0 0) ∧
    decodeTableWord 96 0x800000000000000000000000 = some (.wrpix 0 0) ∧
    decodeTableWord 96 0xC00000000000000000000000 = some (.wrpixs 0 0) ∧
    decodeTableWord 40 0x8800000000 = some (.setlen 0) ∧ decodeTableWord 40 0xC000000000 = some (.wrslot 0 0) := by
  decide

/-! ### Pure functions: V-P1 to V-P11 -/

theorem test_fillWord : fillWord 0xF800 = 0x00F800F8 ∧ fillWord 0xABCD = 0xCDABCDAB := by decide

theorem test_pack2 : pack2 0x0000 0xFFFF = 0xFFFF0000 ∧ pack2 0x1111 0x2222 = 0x22221111 := by decide

theorem test_swapWord : swapWord 0x00 0xF8 0xE0 0x07 = 0xE00700F8 ∧ swapHalf 0x54 0xA1 = 0x000054A1 := by decide

theorem test_split : splitRem 0xFFFFFFFF = 31 ∧ splitFull 0xFFFFFFFF = 0xFFFFFFE0 ∧ splitRem 32 = 0 ∧ splitFull 33 = 32 := by
  decide

/-- R5: LEN_FULL and LEN_HALF from the window sizes. -/
theorem test_parameters : Config.lenFull.toNat = Config.windowPixels * 16 - 1 ∧
    Config.lenHalf.toNat = Config.halfPixels * 16 - 1 ∧ Config.windowPixels = 2 * Config.slotCount := by decide

theorem test_lenVal : lenVal 1 = 15 ∧ lenVal 15 = 239 ∧ lenVal 31 = 495 ∧ lenVal 32 = 511 ∧ wordsFor 31 = 16 := by decide

/-! ### Micro-operations: V-M1 to V-M11, V-X1 to V-X4 -/

theorem test_setlen : (nextOf (exec (.setlen 127) State.reset)).map (·.len) = some 127 := by decide

theorem test_setlen_busy : faultOf (exec (.setlen 15) (started (twoSlots 15 0 0))) = some .mutateWhileBusy := by decide

theorem test_wrslot : (nextOf (exec (.wrslot 3 0x00F800F8) State.reset)).map (fun t => (t.slots[3], t.slots[2])) =
    some (0x00F800F8, 0) := by decide

theorem test_wrslot_busy_uncovered :
    faultOf (exec (.wrslot 9 7) (started (twoSlots 15 0 0))) = some .mutateWhileBusy := by decide

theorem test_start_burst : (nextOf (exec (.start true) (twoSlots 15 0x1234ABCD 0))).map (fun t => (t.busy, txBytes t.inflight)) =
    some (true, [0xCD, 0xAB]) := by decide

theorem test_start_one_bit : (nextOf (exec (.start true) (twoSlots 0 0x00000080 0))).map (·.inflight) = some [true] := by
  decide

theorem test_rdbusy : (nextOf (exec .rdbusy (started (twoSlots 15 0 0)))).map (·.result) = some 1 := by decide

theorem test_rdbusy_idle : (nextOf (exec .rdbusy State.reset)).map (·.result) = some 0 := by decide

theorem test_waitidle_passes : (nextOf (exec .waitidle State.reset)).map (·.host) = some [] := by decide

theorem test_waitidle_holds : hostEnabled ((started (twoSlots 15 0 0)).setHost [.op .pseudo]) = false := by decide

/-- V-M7: the high lane of slot 1 is not sent. -/
theorem test_burst_bytes : txBytes (payload 47 (twoSlots 47 0x44332211 0x88776655).slots) =
    [0x11, 0x22, 0x33, 0x44, 0x55, 0x66] := by decide

/-- V-M5: the burst reaches the bus. -/
theorem test_burst_step : (nextOf (opBurst (started (twoSlots 15 0x1234ABCD 0)))).map (fun t => (txBytes t.tx, t.busy)) =
    some ([0xCD, 0xAB], false) := by decide

/-! ### Commands -/

theorem test_fill_entry : (nextOf (seqStep (filling .fEntry 40))).map (fun t => (t.rem, t.full, t.fw, t.phase)) =
    some (8, 32, 0x00F800F8, .fRwait) := by decide

/-- P4: no remainder. -/
theorem test_fill_entry_no_remainder : (nextOf (seqStep (filling .fEntry 64))).map (fun t => (t.rem, t.full, t.phase)) =
    some (0, 64, .fPwait) := by decide

/-- V-W1: the last word of an odd count is read whole. -/
theorem test_wrpix_last_word : (nextOf (seqStep (((streaming .wTslot).setIdx 2).setPtr 0x108))).map
    (fun t => (t.slots[2], t.ptr, t.phase)) = some (0x55AAFF00, 0x10C, .wTstart) := by decide

theorem test_wrpix_word : (nextOf (seqStep (streaming .wTslot))).map (fun t => (t.slots[0], t.phase)) =
    some (0xFFFF0000, .wTslot) := by decide

/-- V-S7: two bytes only, the high lane zero. -/
theorem test_wrpixs_last_half : (nextOf (seqStep (((swapping .sCslot).setIdx 2).setPtr 0x108))).map
    (fun t => (t.slots[2], t.ptr, t.phase)) = some (0x000000FF, 0x10A, .sCstart) := by decide

theorem test_wrpixs_word : (nextOf (seqStep (((swapping .sCslot).setIdx 1).setPtr 0x104))).map
    (fun t => (t.slots[1], t.ptr)) = some (0xFF000000, 0x108) := by decide

/-- V-X5: ISSUE while a command is active. -/
theorem test_issue_while_active : faultOf (exec (.fill 1 1) (filling .fLwait 64)) = some .issueWhileActive := by decide

/-- V-X6 through the HOST's step. -/
theorem test_reserved_refused : refusalOf (hostOp (.desc96 (descOfWords 0x4000F800 1 0)) State.reset) =
    some (.reservedEncoding .swapWithSolidFill) := by decide

/-- The very next step runs a placed instruction. -/
theorem test_withFetchWord : (nextOf (step (State.reset.withFetchWord 40 0x880000007F))).map (·.len) = some 127 ∧
    (nextOf (step (State.reset.withFetchWord 96 0x0000F8000000002800000000))).map (·.phase) = some .fEntry := by decide

/-- V-M11: the bits of a byte, most significant first. -/
theorem test_byteBits : byteBits 0xA5 = [true, false, true, false, false, true, false, true] := by decide

/-! ### Witnesses: data that meet every hypothesis of each statement, clause by clause -/

theorem witness_EncodeOfDecodedDescriptor : decodeDesc (descOfWords 0x0000FFFF 0xFFFFFFFF 0) = .ok (.fill 0xFFFF 0xFFFFFFFF) := by
  decide

theorem witness_ReservedDescriptorsRefused :
    decodeDesc (descOfWords 0x40000000 0 0) = .error .swapWithSolidFill ∧ State.reset.phase = .idle := by decide

theorem witness_ReservedAccessesRefused : decodeUop 0xBC00000000 = .error .reservedOffset ∧
    decodeUop 0x8C00000000 = .error .reservedOffset ∧ decodeUop 0x7C00000000 = .error .readOfWriteOnly ∧
    uopWr 0x84FFFFFFFE = true ∧ uopOff 0x84FFFFFFFE = 0x04#7 ∧ (uopData 0x84FFFFFFFE).getLsbD 0 = false := by decide

theorem witness_SetlenWritesLen : State.reset.params.busMode = .serial ∧ State.reset.phase = .idle ∧
    (started State.reset).phase = .idle ∧ (started State.reset).busy = true ∧
    uopWr 0x8800000000 = true ∧ uopOff 0x8800000000 = 0x08#7 := by decide

theorem witness_WrslotWritesSlot : State.reset.params.busMode = .serial ∧ State.reset.phase = .idle ∧
    State.reset.busy = false ∧ (started State.reset).busy = true := by decide

/-- The slots a burst of `LEN = 31` covers end at slot 0, those of `LEN = 32` at slot 1. -/
theorem witness_StartBeginsBurst :
    (State.reset.writeLen 31).params.busMode = .serial ∧ (State.reset.writeLen 31).phase = .idle ∧
    startable ((State.reset.writeLen 31).writeSlot 0 7) = true ∧ startable ((State.reset.writeLen 32).writeSlot 0 7) = false ∧
    startable (twoSlots 32 7 7) = true ∧ startable State.reset = false ∧ (started State.reset).busy = true := by decide

theorem witness_StartWithBitZeroClearDoesNothing : (started (filling .fLwait 64)).params.busMode = .serial := by decide

theorem witness_RdbusyReturnsBusy : (started (filling .fLwait 64)).params.busMode = .serial := by decide

theorem witness_WaitidlePassesOnlyWhileIdle : State.reset.busy = false ∧ (started State.reset).busy = true ∧
    (State.reset.setHost [.op .pseudo]).host = .op .pseudo :: [] := by decide

theorem witness_HostMutationWhileActiveFaults : (filling .fLwait 64).params.busMode = .serial ∧
    (filling .fLwait 64).phase ≠ .idle := by decide

/-- The last bit of the longest burst is in slot 15; bursts of 8, 16 and 512 bits. -/
theorem witness_PayloadBitOrder : (511 : Nat) ≤ (511 : Len).toNat ∧ 511 / 32 < 16 ∧ ((7 : Len).toNat + 1) % 8 = 0 ∧
    ((15 : Len).toNat + 1) % 16 = 0 ∧ ((511 : Len).toNat + 1) % 16 = 0 := by decide

theorem witness_BurstCompletes : (started State.reset).busy = true := by decide

/-- A step of the HOST, one of BURST, and a reset. -/
theorem witness_TxGrowsOnlyByWholeBursts : (nextOf (step (pending State.reset .rdbusy))).isSome = true ∧
    (nextOf (step (started (twoSlots 15 1 1)))).map (·.tx.length) = some 16 ∧
    (nextOf (step (State.reset.setHost [.reset]))).map (·.tx) = some [] := by decide

/-- By a START of the HOST, and by one of SEQ. -/
theorem witness_BusyRisesByStartFallsByCompletion :
    (nextOf (step { twoSlots 15 1 1 with phase := .wTstart })).map (·.busy) = some true ∧
    (twoSlots 15 1 1).busy = false ∧ (nextOf (step (pending (twoSlots 15 1 1) (.start true)))).map (·.busy) = some true ∧
    (started (twoSlots 15 1 1)).busy = true ∧ (nextOf (step (started (twoSlots 15 1 1)))).map (·.busy) = some false := by
  decide

theorem witness_SwapIsInvolution : (0xE00700F8 : Word) = swapWord 0x00 0xF8 0xE0 0x07 := by decide

theorem witness_LenvalCoversWords : 1 ≤ 1 ∧ 1 ≤ 32 ∧ 32 ≤ 32 := by decide

theorem witness_SourceReadsLittleEndian : readByte bytesA 0x108 = some 0x00 ∧ readByte bytesA (0x108 + 1) = some 0xFF ∧
    readByte bytesA (0x108 + 2) = some 0xAA ∧ readByte bytesA (0x108 + 3) = some 0x55 := by decide

/-- The byte past memory A, for a word and for the two bytes of a last pixel. -/
theorem witness_UnreadableSourceIsStuck :
    readByte bytesA (((streaming .wTslot).setPtr 0x10A).ptr + BitVec.ofNat 32 3) = none ∧
    (streaming .wFslot).phase = .wFslot ∧ lastOdd (swapping .sCslot) = false ∧
    readByte bytesA ((((swapping .sCslot).setIdx 2).setPtr 0x10B).ptr + BitVec.ofNat 32 1) = none ∧
    lastOdd ((swapping .sCslot).setIdx 2) = true := by decide

/-- WRPIX of five pixels reads bytes 0x100 to 0x10B, WRPIXS to 0x109. -/
theorem witness_HostChangesOnlyFreeBytes : inRegion (streaming .wTslot) 0x10B = true ∧
    readByte (streaming .wTslot).mem 0x10B ≠ some 0 ∧ inRegion (streaming .wTslot) 0x10C = false ∧
    inRegion (swapping .sCslot) 0x109 = true ∧ inRegion (swapping .sCslot) 0x10A = false ∧
    inRegion State.reset 0x100 = false := by decide

theorem witness_BadSourceRegionRefused : State.reset.params.busMode = .serial ∧ State.reset.phase = .idle ∧
    (1 : Word) ≠ 0 ∧ State.reset.params.srcAlign = .one ∧ (2 : Word).extractLsb' 0 2 ≠ 0 ∧
    2 ^ 32 < (0xFFFFFFFD : Word).toNat + 4 * (((1 : Word).toNat + 1) / 2) ∧
    2 ^ 32 < (0xFFFFFFFF : Word).toNat + 2 * (1 : Word).toNat := by decide

/-- A platform with `SRC_ALIGN = 4`: a misaligned source, and an aligned one whose region passes the top. -/
theorem witness_BadSourceRegionRefused_aligned :
    (0xFFFFFFFC : Word).extractLsb' 0 2 = 0 ∧ 2 ^ 32 < (0xFFFFFFFC : Word).toNat + 4 * (((3 : Word).toNat + 1) / 2) ∧
    { State.reset with params := { State.reset.params with srcAlign := .four } }.params.srcAlign = .four ∧
    { State.reset with params := { State.reset.params with srcAlign := .four } }.phase = .idle := by decide

/-- Regions that end exactly at the top of the address space. -/
theorem witness_CommandsAreIssued :
    (started State.reset).params.busMode = .serial ∧ (started State.reset).phase = .idle ∧
    (0xFFFFFFFC : Word).toNat + 4 * (((1 : Word).toNat + 1) / 2) ≤ 2 ^ 32 ∧
    (0xFFFFFFFE : Word).toNat + 2 * (1 : Word).toNat ≤ 2 ^ 32 ∧ (0xFFFFFFFC : Word).extractLsb' 0 2 = 0 := by decide

theorem witness_IssueLatchesTheDescriptor : State.reset.phase = .idle ∧ State.reset.params.srcAlign = .one ∧
    decodeDesc (descOfWords 0x80000000 5 0x100) = .ok (.wrpix 0x100 5) ∧ (Instr.wrpix 0x100 5).WellFormed := by decide

theorem witness_IssueWhileActiveFaults : (filling .fLwait 64).params.busMode = .serial ∧
    (filling .fLwait 64).phase ≠ .idle := by decide

theorem witness_CountZeroCompletesAtOnce : (filling .fEntry 0).phase.isEntry = true ∧ descCount (filling .fEntry 0).desc = 0 ∧
    (State.reset.latch (encodeDesc true true 0 0 7) .sEntry).phase.isEntry = true ∧
    descCount (State.reset.latch (encodeDesc true true 0 0 7) .sEntry).desc = 0 := by decide

/-- Completion at the entry of a count of 0, and at the START of a tail. -/
theorem witness_CompletionAtEntryOrLastStart :
    (nextOf (seqStep (filling .fEntry 0))).map (·.phase) = some .idle ∧
    (nextOf (seqStep { twoSlots 15 1 1 with phase := .wTstart })).map (·.phase) = some .idle := by decide

theorem witness_PhaseLeavesIdleOnlyByIssue : (pending State.reset (.fill 1 1)).phase = .idle ∧
    (nextOf (step (pending State.reset (.fill 1 1)))).map (·.phase) = some .fEntry := by decide

theorem witness_DescIsDeadAfterEntry : (filling .fLwait 64).phase.isEntry = false := by decide

theorem witness_MicroOperationsFrame : isCommand (.setlen 7) = false ∧ (nextOf (exec (.setlen 7) State.reset)).isSome = true ∧
    (nextOf (exec (.wrslot 15 7) State.reset)).isSome = true ∧ (nextOf (exec (.start true) (twoSlots 15 1 1))).isSome = true := by
  decide

theorem witness_CommandsFrame : isCommand (.wrpix 0x100 5) = true ∧ (nextOf (exec (.wrpix 0x100 5) withBytes)).isSome = true := by
  decide

theorem witness_SequencerFrame : (nextOf (seqStep (streaming .wTslot))).isSome = true ∧
    (streaming .wTslot).phase.isSlot = true ∧ (streaming .wTslot).phase.isStart = false ∧
    (streaming .wTslot).phase.isLength = false := by decide

/-- SEQ at a WAITIDLE row of WRPIX, where no working register is written. -/
theorem witness_SequencerFrame_working : (nextOf (seqStep (streaming .wTwait))).isSome = true ∧
    (streaming .wTwait).phase.isEntry = false ∧ (streaming .wTwait).phase.isLoad = false ∧
    (streaming .wTwait).phase.isSlot = false ∧
    (streaming .wTwait).phase ∉ [Phase.wFlen, .wTlen, .sAlen, .sBlen, .sClen] := by decide

theorem witness_StepRunsDecodedInstruction : (pending State.reset (.setlen 7)).host = .op (encode (.setlen 7)) :: [] ∧
    decodePort (encode (.setlen 7)) = .ok (.setlen 7) ∧ State.reset.phase = .idle ∧ State.reset.busy = false ∧
    (chooseAgent (pending State.reset (.setlen 7))).map (·.1) = some .host := by decide

/-- HOST and BURST both have a step, and the schedule names either. -/
theorem witness_AnyEnabledAgentCanStep :
    enabled (pending (started (twoSlots 15 1 1)) .rdbusy) .host = true ∧
    enabled (pending (started (twoSlots 15 1 1)) .rdbusy) .burst = true ∧
    ((pending (started (twoSlots 15 1 1)) .rdbusy).setSched [.burst] 0).sched = .burst :: [] := by decide

theorem witness_QuietStateStays : quiet State.reset := by decide

theorem witness_HeldWaitPassesAfterBurst : (started (filling .fLwait 64)).params.busMode = .serial ∧
    (started (filling .fLwait 64)).phase.isWait = true ∧ (started (filling .fLwait 64)).busy = true ∧
    (started (filling .fLwait 64)).host = [] := by decide

theorem witness_ParallelBusRefused :
    { State.reset with params := { State.reset.params with busMode := .parallel8 } }.params.busMode = .parallel8 := by decide

theorem witness_HostSeesSeqActive : (State.reset.setHost [.readActive]).host = .readActive :: [] ∧
    (State.reset.setHost [.awaitDone]).host = .awaitDone :: [] := by decide

theorem witness_ResetAtAnyMoment : ((started (twoSlots 15 1 1)).setHost [.reset]).host = .reset :: [] := by decide

theorem witness_BlockInv_idle : BlockInv State.reset := ⟨by decide, by decide, trivial⟩

/-- WRPIX at a slot phase, its region readable: the invariant holds and the machine steps. -/
theorem witness_BlockInv_slot : BlockInv (streaming .wTslot) :=
  ⟨by decide, by decide,
    show sequenceDesc (streaming .wTslot) false ∧ remIn (streaming .wTslot) 1 31 ∧ pointsAfter (streaming .wTslot) 0 ∧
      loading (streaming .wTslot) 79 3 by decide⟩

theorem witness_StepKeepsInvariant : (nextOf (step (streaming .wTslot))).isSome = true := by decide

theorem witness_SequencerGoesOnWithReadableBuffer :
    readable (streaming .wTslot).mem (regionStart (streaming .wTslot).desc) (regionSize (streaming .wTslot).desc) = true := by
  decide

/-- SEQ's one fault: the same state with nothing readable keeps the invariant. -/
theorem witness_SequencerNeverViolates : faultOf (seqStep ((streaming .wTslot).setMem [])) = some .sourceUnreadable := by
  decide

/-- Memory A and memory A with one byte more agree on the region. -/
theorem witness_SequencerReadsOnlyItsRegion :
    ∀ a, inRegion (streaming .wTslot) a = true → memRead (memPut bytesA 0x200 1) a = memRead (streaming .wTslot).mem a := by
  intro a h
  rw [memRead_memPut]
  split
  · subst a; exact absurd h (by decide)
  · rfl

/-- Idle, and with a burst in flight. -/
theorem witness_FillSendsColourCountTimes : standing withBytes ∧ standing (started (twoSlots 15 1 1)) ∧
    (started (twoSlots 15 1 1)).busy = true := by decide

theorem witness_FillLeavesItsWord : standing (started (twoSlots 15 1 1)) := by decide

theorem witness_WrpixSendsBufferInOrder : standing (started withBytes) ∧
    alignedFor (started withBytes).params 0x100 5 = true ∧ (Instr.wrpix 0x100 5).WellFormed ∧
    readable (started withBytes).mem (0x100 : Word).toNat (4 * wordsFor (5 : Word).toNat) = true := by decide

/-- 40 pixels: slots 0 to 3 hold the remainder's words, slot 4 one of the window before; five pixels: slot 3 is kept. -/
theorem witness_WrpixSendsBufferInOrder_slots : streamSlotOffset 40 3 = some 76 ∧ streamSlotOffset 40 4 = some 16 ∧
    streamSlotOffset 5 2 = some 8 ∧ streamSlotOffset 5 3 = none := by decide

theorem witness_WrpixsSendsPixelsSwapped : standing (started withBytes) ∧ (Instr.wrpixs 0x100 5).WellFormed ∧
    readable (started withBytes).mem (0x100 : Word).toNat (2 * (5 : Word).toNat) = true := by decide

/-- 53 pixels: the tail's three words, five of the half burst, eight of the full burst. -/
theorem witness_WrpixsSendsPixelsSwapped_slots : swapSlotOffset 53 2 = some 104 ∧ swapSlotOffset 53 3 = some 76 ∧
    swapSlotOffset 53 8 = some 32 ∧ swapSlotOffset 21 8 = none := by decide

theorem witness_ConsecutiveFillsSendInOrder : standing (started withBytes) ∧
    (0xFFFFFFFF : Word).toNat + (0 : Word).toNat < 2 ^ 32 := by decide

/-- One pixel, and a second buffer with its bytes exchanged. -/
theorem witness_SwappedTwiceIsTheBuffer :
    standing withBytes ∧ standing (State.reset.setMem [(0, 0x55), (1, 0xAA)]) ∧
    (Instr.wrpixs 0x10A 1).WellFormed ∧ (Instr.wrpixs 0 1).WellFormed ∧
    readable withBytes.mem (0x10A : Word).toNat (2 * (1 : Word).toNat) = true ∧
    readable (State.reset.setMem [(0, 0x55), (1, 0xAA)]).mem (0 : Word).toNat (2 * (1 : Word).toNat) = true := by decide

/-- Its inner premise: the second buffer holds the bytes the first WRPIXS, seven steps of the machine, puts on the bus. -/
theorem witness_SwappedTwiceIsTheBuffer_bytes :
    (runLog 7 (asking withBytes (encode (.wrpixs 0x10A 1)))).map (fun r => (r.1.tx, r.1.busy)) =
      some (bytesBits (bytesAt [(0, 0x55), (1, 0xAA)] 0 2), false) := by decide

end Sys2Proof.Tests
end

section
/-! PROOFS. The bus mode and the choice of the agent that steps (spec/00_scope.md R7, R10, R62). -/

namespace Sys2Proof.Machine

/-! ### The bus mode -/

theorem onSerial_parallel {s : State} (o : Result) (h : s.params.busMode = .parallel8) :
    onSerial s o = .refused .parallelBus := by
  simp [onSerial, h]

/-- Every instruction is behind the check of the bus mode. -/
theorem exec_eq_onSerial (i : Instr) (s : State) : ∃ o, exec i s = onSerial s o := by
  cases i <;> exact ⟨_, rfl⟩

/-- Settles O45: the step and every instruction are behind the check of the bus mode, which refuses. -/
theorem parallelBusRefused : Obligations.ParallelBusRefused := by
  intro s h
  refine ⟨onSerial_parallel _ h, fun i => ?_⟩
  obtain ⟨o, ho⟩ := exec_eq_onSerial i s
  rw [ho, onSerial_parallel o h]

/-! ### Which agent steps -/

theorem mem_enabledAgents {s : State} {a : Agent} : a ∈ enabledAgents s ↔ enabled s a = true := by
  cases a <;> simp [enabledAgents]

theorem step_of_chooseAgent {s t : State} {a : Agent} (hs : s.params.busMode = .serial)
    (h : chooseAgent s = some (a, t)) : step s = agentStep a t := by
  unfold step machineStep
  rw [onSerial_serial _ hs, h]

theorem chooseAgent_of_enabledAgents_singleton {s : State} {a : Agent} (h : enabledAgents s = [a]) :
    chooseAgent s = some (a, s) := by
  unfold chooseAgent
  rw [h]

/-- The schedule's first agent is the one that steps when it has a step, alone or among others. -/
theorem chooseAgent_of_sched_cons {s : State} {a : Agent} {rest : List Agent} (ha : enabled s a = true)
    (hs : s.sched = a :: rest) : ∃ l n, chooseAgent s = some (a, s.setSched l n) := by
  have hmem : a ∈ enabledAgents s := mem_enabledAgents.2 ha
  have hnext : nextScheduled (enabled s) s.sched = some (a, rest) := by simp [hs, nextScheduled, ha]
  match hes : enabledAgents s with
  | [] => simp [hes] at hmem
  | [b] =>
    obtain rfl : a = b := by simpa [hes] using hmem
    exact ⟨s.sched, s.turn, chooseAgent_of_enabledAgents_singleton hes⟩
  | b :: c :: more => exact ⟨rest, s.turn, by simp [chooseAgent, hes, resolveChoice, hnext]⟩

/-- Settles O42: the schedule's head is the agent chosen, and the step is its step. -/
theorem anyEnabledAgentCanStep : Obligations.AnyEnabledAgentCanStep := by
  intro s a rest hs ha hsched
  obtain ⟨l, n, hchosen⟩ := chooseAgent_of_sched_cons ha hsched
  exact ⟨l, n, step_of_chooseAgent hs hchosen⟩

/-! ### The HOST's step -/

/-- A word handed to a port holds the HOST at most while a burst is in flight (R95). -/
theorem hostHolds_op_of_not_busy {s : State} (p : PortWord) (h : s.busy = false) : hostHolds (.op p) s = false := by
  cases p
  case pseudo => exact h
  case desc96 => rfl
  case uop40 => rfl

/-- With no command active and no burst in flight, a HOST with a word pending is the only agent that has a step. -/
theorem enabledAgents_eq_host {s : State} {p : PortWord} {rest : List HostAct} (hh : s.host = .op p :: rest)
    (hp : s.phase = .idle) (hb : s.busy = false) : enabledAgents s = [.host] := by
  have hhost : enabled s .host = true := by simp [enabled, hostEnabled, hh, hostHolds_op_of_not_busy p hb]
  have hseq : enabled s .seq = false := by simp [enabled, seqEnabled, State.seqActive, hp]
  have hburst : enabled s .burst = false := hb
  simp [enabledAgents, hhost, hseq, hburst]

theorem hostStep_of_decodes {s : State} {p : PortWord} {rest : List HostAct} {i : Instr}
    (hh : s.host = .op p :: rest) (hd : decodePort p = .ok i) : hostStep s = exec i (s.setHost rest) := by
  simp [hostStep, hh, hostAct, hostOp, hd]

/-- Settles O41: the chosen HOST takes its word off and runs what it decodes to; at `pc = IDLE` with `BUSY = 0` HOST is
the agent chosen. -/
theorem stepRunsDecodedInstruction : Obligations.StepRunsDecodedInstruction := by
  intro s p rest i hs hh hd
  constructor
  · intro u hchosen
    obtain ⟨-, l, n, rfl⟩ := chooseAgent_some hchosen
    exact ⟨(step_of_chooseAgent hs hchosen).trans (hostStep_of_decodes hh hd), l, n, rfl⟩
  · intro hp hb
    have hchosen : chooseAgent s = some (.host, s) :=
      chooseAgent_of_enabledAgents_singleton (enabledAgents_eq_host hh hp hb)
    exact (step_of_chooseAgent hs hchosen).trans (hostStep_of_decodes hh hd)

end Sys2Proof.Machine
end

section
/-! PROOFS. What one instruction, one row of SEQ, one action of the HOST and one step of the machine can be, each said
once. -/

namespace Sys2Proof.Machine

/-! ### One instruction -/

/-- What an instruction whose `exec` has a next state has done: one constructor per meaning, with its guards. -/
inductive Executed (s : State) : Instr → State → Prop
  | fill {c : Pixel} {n : Word} (hp : s.phase = .idle) :
      Executed s (.fill c n) (s.latch (commandDesc (.fill c n)) .fEntry)
  | wrpix {a n : Word} (hp : s.phase = .idle) (ha : alignedFor s.params a n = true)
      (hw : (Instr.wrpix a n).WellFormed) : Executed s (.wrpix a n) (s.latch (commandDesc (.wrpix a n)) .wEntry)
  | wrpixs {a n : Word} (hp : s.phase = .idle) (hw : (Instr.wrpixs a n).WellFormed) :
      Executed s (.wrpixs a n) (s.latch (commandDesc (.wrpixs a n)) .sEntry)
  | rdbusy : Executed s .rdbusy (s.setResult (statusWord s))
  | start (hp : s.phase = .idle) (hb : s.busy = false) (hs : startable s = true) :
      Executed s (.start true) s.beginBurst
  | startNop : Executed s (.start false) s
  | setlen {v : Len} (hp : s.phase = .idle) (hb : s.busy = false) : Executed s (.setlen v) (s.writeLen v)
  | wrslot {i : BitVec 4} {w : Word} (hp : s.phase = .idle) (hb : s.busy = false) :
      Executed s (.wrslot i w) (s.writeSlot i w)
  | waitidlePasses (hb : s.busy = false) : Executed s .waitidle s
  | waitidleHolds (hb : s.busy = true) : Executed s .waitidle (s.setHost (.op .pseudo :: s.host))

theorem execWrpix_eq_next {a n : Word} {s t : State} (h : execWrpix a n s = .next t) :
    s.phase = .idle ∧ alignedFor s.params a n = true ∧ (Instr.wrpix a n).WellFormed ∧
      t = s.latch (commandDesc (.wrpix a n)) .wEntry := by
  obtain ⟨-, h⟩ := onSerial_eq_next.1 h
  split_ifs at h with hp ha hw
  obtain ⟨hp, rfl⟩ := opIssue_eq_next.1 h
  exact ⟨hp, by simpa using ha, hw, rfl⟩

theorem execWrpixs_eq_next {a n : Word} {s t : State} (h : execWrpixs a n s = .next t) :
    s.phase = .idle ∧ (Instr.wrpixs a n).WellFormed ∧ t = s.latch (commandDesc (.wrpixs a n)) .sEntry := by
  obtain ⟨-, h⟩ := onSerial_eq_next.1 h
  split_ifs at h with hp hw
  obtain ⟨hp, rfl⟩ := opIssue_eq_next.1 h
  exact ⟨hp, hw, rfl⟩

/-- The one place where the arms of `exec` are taken apart. -/
theorem exec_eq_next {i : Instr} {s t : State} (h : exec i s = .next t) : Executed s i t := by
  cases i with
  | fill c n =>
    obtain ⟨hp, rfl⟩ := opIssue_eq_next.1 (onSerial_eq_next.1 h).2
    exact .fill hp
  | wrpix a n =>
    obtain ⟨hp, ha, hw, rfl⟩ := execWrpix_eq_next h
    exact .wrpix hp ha hw
  | wrpixs a n =>
    obtain ⟨hp, hw, rfl⟩ := execWrpixs_eq_next h
    exact .wrpixs hp hw
  | rdbusy =>
    obtain ⟨-, h⟩ := onSerial_eq_next.1 h
    cases h
    exact .rdbusy
  | start go =>
    obtain ⟨-, h⟩ := onSerial_eq_next.1 h
    cases go with
    | false => cases h; exact .startNop
    | true =>
      obtain ⟨hp, h⟩ := hostOwned_eq_next.1 h
      obtain ⟨hb, hs, rfl⟩ := opStart_eq_next.1 h
      exact .start hp hb hs
  | setlen v =>
    obtain ⟨hp, h⟩ := hostOwned_eq_next.1 (onSerial_eq_next.1 h).2
    obtain ⟨hb, rfl⟩ := opSetLen_eq_next.1 h
    exact .setlen hp hb
  | wrslot i w =>
    obtain ⟨hp, h⟩ := hostOwned_eq_next.1 (onSerial_eq_next.1 h).2
    obtain ⟨hb, rfl⟩ := opWrSlot_eq_next.1 h
    exact .wrslot hp hb
  | waitidle =>
    obtain ⟨-, h⟩ := onSerial_eq_next.1 h
    split_ifs at h with hb
    · cases h; exact .waitidleHolds hb
    · cases h; exact .waitidlePasses (by simpa using hb)

/-! ### One row of SEQ -/

/-- What a step of SEQ has done, by the kind of row `pc` is at (R10, R131, R150, R167). A register that only some rows
of a kind write has its new value as an argument, with the condition under which that is the old one; the next phase
is left open. -/
inductive SeqMoved (s : State) : State → Prop
  | idle (hp : s.phase = .idle) : SeqMoved s s
  | entry (rem full ptr fw : Word) (p : Phase) (hp : s.phase.isEntry = true)
      (hfill : s.phase ≠ .fEntry → full = s.full ∧ fw = s.fw)
      (hsequence : s.phase ∉ [.wEntry, .sEntry] → ptr = s.ptr) :
      SeqMoved s ((((((s.setRem rem).setFull full).setPtr ptr).setIdx 0).setFw fw).setPhase p)
  | held (hp : s.phase.isWait = true) (hb : s.busy = true) : SeqMoved s s
  | passed (p : Phase) (hp : s.phase.isWait = true) (hb : s.busy = false) : SeqMoved s (s.setPhase p)
  | length (v : Len) (idx : Idx) (p : Phase) (hp : s.phase.isLength = true) (hb : s.busy = false)
      (hidx : s.phase ∉ [.wFlen, .wTlen, .sAlen, .sBlen, .sClen] → idx = s.idx) :
      SeqMoved s (((s.writeLen v).setIdx idx).setPhase p)
  | slot (w ptr : Word) (p : Phase) (hp : s.phase.isSlot = true) (hb : s.busy = false) (hi : s.idx.toNat < 16)
      (hptr : s.phase.isLoad = false → ptr = s.ptr) :
      SeqMoved s ((((s.writeSlot (s.idx.setWidth 4) w).setIdx (s.idx + 1)).setPhase p).setPtr ptr)
  | start (rem full : Word) (p : Phase) (hp : s.phase.isStart = true) (hb : s.busy = false)
      (hs : startable s = true) (hrem : s.phase ∉ [.wFstart, .sAstart, .sBstart] → rem = s.rem)
      (hfull : s.phase ≠ .fLstart → full = s.full) :
      SeqMoved s (((s.beginBurst.setRem rem).setFull full).setPhase p)

theorem SeqMoved.of_fillEntry {s t : State} (hp : s.phase = .fEntry) (h : fillEntry s = .next t) : SeqMoved s t := by
  obtain rfl := Host.Outcome.next.inj h
  exact .entry (splitRem (descCount s.desc)) (splitFull (descCount s.desc)) s.ptr (fillWord (descColor s.desc)) _
    (by rw [hp]; rfl) (fun hn => absurd hp hn) fun _ => rfl

/-- `W_ENTRY` and `S_ENTRY` differ in the next phase only. -/
theorem SeqMoved.of_sequenceEntry {p : Phase} {s t : State} (hp : s.phase ∈ [.wEntry, .sEntry])
    (h : Host.Outcome.next ((((s.setRem (descCount s.desc)).setPtr (descSrc s.desc)).setIdx 0).setPhase p) =
      (.next t : Result)) : SeqMoved s t := by
  obtain rfl := Host.Outcome.next.inj h
  have hentry : s.phase.isEntry = true ∧ s.phase ≠ .fEntry := by
    simp only [List.mem_cons, List.not_mem_nil, or_false] at hp
    rcases hp with hp | hp <;> simp [hp, Phase.isEntry]
  exact .entry (descCount s.desc) s.full (descSrc s.desc) s.fw p hentry.1 (fun _ => ⟨rfl, rfl⟩) fun hn => absurd hp hn

theorem SeqMoved.of_waitRow {p : Phase} {s t : State} (hp : s.phase.isWait = true) (h : waitRow p s = .next t) :
    SeqMoved s t := by
  rw [waitRow_eq_next] at h
  subst h
  split_ifs with hb
  · exact .held hp hb
  · exact .passed p hp (by simpa using hb)

theorem SeqMoved.of_lenRow {v : Len} {p : Phase} {s t : State} (hp : s.phase.isLength = true)
    (h : lenRow v p s = .next t) : SeqMoved s t := by
  obtain ⟨hb, rfl⟩ := lenRow_eq_next.1 h
  exact .length v s.idx p hp hb fun _ => rfl

theorem SeqMoved.of_lenRow0 {v : Len} {p : Phase} {s t : State} (hp : s.phase.isLength = true)
    (hidx : s.phase ∈ [.wFlen, .wTlen, .sAlen, .sBlen, .sClen]) (h : lenRow0 v p s = .next t) : SeqMoved s t := by
  obtain ⟨hb, rfl⟩ := lenRow0_eq_next.1 h
  exact .length v 0 p hp hb fun hn => absurd hidx hn

theorem SeqMoved.of_slotRow {w : Word} {n : Nat} {p q : Phase} {s t : State} (hp : s.phase.isSlot = true)
    (h : slotRow w n p q s = .next t) : SeqMoved s t := by
  obtain ⟨hi, hb, rfl⟩ := slotRow_eq_next.1 h
  exact .slot w s.ptr (if (s.idx + 1).toNat < n then p else q) hp hb hi fun _ => rfl

theorem SeqMoved.of_loadRow {w : Option Word} {k : Word} {n : Nat} {p q : Phase} {s t : State}
    (hp : s.phase.isSlot = true) (hl : s.phase.isLoad = true) (h : loadRow w k n p q s = .next t) : SeqMoved s t := by
  obtain ⟨v, -, hi, hb, rfl⟩ := loadRow_eq_next.1 h
  exact .slot v (s.ptr + k) _ hp hb hi fun hn => by simp [hl] at hn

/-- A START row whose action beyond the START is `pc`. -/
theorem SeqMoved.of_startRow {p : Phase} {s t : State} (hp : s.phase.isStart = true)
    (h : startRow (fun t => t.setPhase p) s = .next t) : SeqMoved s t := by
  obtain ⟨hb, hs, rfl⟩ := startRow_eq_next.1 h
  exact .start s.rem s.full p hp hb hs (fun _ => rfl) fun _ => rfl

/-- A START row that writes `REM`. -/
theorem SeqMoved.of_startRow_rem {r : Word} {p : Phase} {s t : State} (hp : s.phase.isStart = true)
    (hr : s.phase ∈ [.wFstart, .sAstart, .sBstart])
    (h : startRow (fun t => (t.setRem r).setPhase p) s = .next t) : SeqMoved s t := by
  obtain ⟨hb, hs, rfl⟩ := startRow_eq_next.1 h
  exact .start r s.full p hp hb hs (fun hn => absurd hr hn) fun _ => rfl

/-- The one place where the phase tables are taken apart: each phase is a row of its kind. -/
theorem seqStep_eq_next {s t : State} (h : seqStep s = .next t) : SeqMoved s t := by
  unfold seqStep at h
  cases hp : s.phase <;> rw [hp] at h
  case idle => cases h; exact .idle hp
  case fEntry => exact .of_fillEntry hp h
  case wEntry => exact .of_sequenceEntry (by simp [hp]) h
  case sEntry => exact .of_sequenceEntry (by simp [hp]) h
  case fRwait | fPwait | fLwait | wFwait | wTwait | sAwait | sBwait | sCwait =>
    exact .of_waitRow (by rw [hp]; rfl) h
  case fRlen | fLlen => exact .of_lenRow (by rw [hp]; rfl) h
  case wFlen | wTlen | sAlen | sBlen | sClen => exact .of_lenRow0 (by rw [hp]; rfl) (by simp [hp]) h
  case fRslot | fPslot => exact .of_slotRow (by rw [hp]; rfl) h
  case wFslot | wTslot | sAslot | sBslot => exact .of_loadRow (by rw [hp]; rfl) (by rw [hp]; rfl) h
  case sCslot =>
    simp only [swapCslot] at h
    split at h
    all_goals exact .of_loadRow (by rw [hp]; rfl) (by rw [hp]; rfl) h
  case fRstart | wTstart | sCstart => exact .of_startRow (by rw [hp]; rfl) h
  case wFstart | sAstart | sBstart => exact .of_startRow_rem (by rw [hp]; rfl) (by simp [hp]) h
  case fLstart =>
    obtain ⟨hb, hs, rfl⟩ := startRow_eq_next.1 h
    exact .start s.rem _ _ (by rw [hp]; rfl) hb hs (fun _ => rfl) fun hn => absurd hp hn

/-! ### One action of the HOST -/

/-- What an action of the HOST that has a next state has done. -/
inductive HostActed (s : State) : HostAct → State → Prop
  | op {p : PortWord} {i : Instr} {t : State} (hd : decodePort p = .ok i) (hx : Executed s i t) :
      HostActed s (.op p) t
  | awaitDone : HostActed s .awaitDone s
  | readActive : HostActed s .readActive (s.setResult (activeWord s))
  | poke {a : Word} {b : Option Byte} : HostActed s (.poke a b) (s.setMem (memSet s.mem a.toNat b))
  | reset : HostActed s .reset s.resetBlock

theorem rejectWord_ne_next (p : PortWord) (e : DecodeError) (s t : State) : rejectWord p e s ≠ .next t := by
  cases p
  case desc96 => simp only [rejectWord]; split <;> simp
  case uop40 | pseudo => simp [rejectWord]

theorem hostAct_eq_next {act : HostAct} {s t : State} (h : hostAct act s = .next t) : HostActed s act t := by
  cases act with
  | op p =>
    simp only [hostAct, hostOp] at h
    split at h
    · rename_i i hd
      exact .op hd (exec_eq_next h)
    · exact absurd h (rejectWord_ne_next _ _ _ _)
  | awaitDone => cases h; exact .awaitDone
  | readActive => cases h; exact .readActive
  | poke a b =>
    simp only [hostAct, hostPoke] at h
    split at h <;> cases h
    exact .poke
  | reset => cases h; exact .reset

/-! ### One step of the machine -/

/-- What a step of the machine that has a next state has done: nothing, or one agent has moved after the choice of it,
which writes the schedule only. -/
inductive Stepped (s : State) : State → Prop
  | none : Stepped s s
  | host {act : HostAct} {rest : List HostAct} {t : State} (l : List Agent) (n : Nat) (hh : s.host = act :: rest)
      (ha : HostActed ((s.setSched l n).setHost rest) act t) : Stepped s t
  | seq {t : State} (l : List Agent) (n : Nat) (hp : s.phase ≠ .idle) (hm : SeqMoved (s.setSched l n) t) : Stepped s t
  | burst (l : List Agent) (n : Nat) (hb : s.busy = true) : Stepped s (s.setSched l n).endBurst

theorem step_eq_next_cases {s t : State} (h : step s = .next t) : Stepped s t := by
  obtain ⟨-, rfl | ⟨a, l, n, he, h⟩⟩ := step_eq_next h
  · exact .none
  cases a with
  | host =>
    cases hh : s.host with
    | nil => simp [enabled, hostEnabled, hh] at he
    | cons act rest =>
      simp only [agentStep, hostStep, State.setSched_host, hh] at h
      exact .host l n hh (hostAct_eq_next h)
  | seq =>
    have hp : s.phase ≠ .idle := fun hp => by simp [enabled, seqEnabled, State.seqActive, hp] at he
    exact .seq l n hp (seqStep_eq_next h)
  | burst =>
    have hb : s.busy = true := he
    obtain rfl := opBurst_eq_next.1 h
    simpa [hb] using Stepped.burst l n hb

end Sys2Proof.Machine
end

section
/-! PROOFS. The state after reset (spec/10_state.md R33), the bus history as bytes (R26), and a command's descriptor at
the HOST's port (R71, R175). -/

namespace Sys2Proof.Machine

/-! ### Reset -/

/-- No slot holds a value after reset. -/
theorem reset_slotWritten (j : Nat) (hj : j < 16) : State.reset.slotWritten[j] = false :=
  Vector.getElem_replicate hj

/-- Settles O47: every value stands in `State.reset`, and START finds `LEN` without one. -/
theorem resetState : Obligations.ResetState :=
  ⟨rfl, rfl, rfl, rfl, rfl, rfl, reset_slotWritten, rfl⟩

/-- Settles O49: memory is empty, no burst is in flight, and no command is active. -/
theorem invariantAtReset : Obligations.InvariantAtReset := by
  have hbus : busInv State.reset := by decide
  exact ⟨reset_mem_wf, hbus, trivial⟩

/-! ### The bus history as bytes -/

theorem byteOfBits_getLsbD (b : Byte) :
    byteOfBits (b.getLsbD 7) (b.getLsbD 6) (b.getLsbD 5) (b.getLsbD 4) (b.getLsbD 3) (b.getLsbD 2) (b.getLsbD 1)
      (b.getLsbD 0) = b := by
  apply BitVec.eq_of_getLsbD_eq
  intro i hi
  simp only [byteOfBits, BitVec.getLsbD_append]
  interval_cases i <;> simp

/-- Eight bits of a byte at the front of the bus history are read as that byte. -/
theorem txBytes_byteBits_append (b : Byte) (l : List Bool) : txBytes (byteBits b ++ l) = b :: txBytes l :=
  congrArg (· :: txBytes l) (byteOfBits_getLsbD b)

theorem bytesBits_cons (b : Byte) (bs : List Byte) : bytesBits (b :: bs) = byteBits b ++ bytesBits bs := rfl

/-- Settles O18, by induction on the bytes sent. -/
theorem txBytesReadsBytesSent : Obligations.TxBytesReadsBytesSent := by
  intro bs
  induction bs with
  | nil => rfl
  | cons b bs ih => rw [bytesBits_cons, txBytes_byteBits_append, ih]

/-! ### The descriptor of a command -/

/-- A descriptor with its reserved bits 0 is made of its fields (R71). -/
theorem encodeDesc_fields {d : Desc} (h : descReserved d = 0) :
    encodeDesc (descKind d) (descSwap d) (descColor d) (descCount d) (descSrc d) = d := by
  have hres : 0#14 = descReserved d := h.symm
  rw [encodeDesc, hres]
  apply BitVec.eq_of_getLsbD_eq
  intro i hi
  simp only [descKind, descSwap, descReserved, descColor, descCount, descSrc, BitVec.getLsbD_append,
    BitVec.getLsbD_extractLsb']
  interval_cases i <;> simp

/-- A legal descriptor is the encoding of its command, so the latched descriptor is the issued one. -/
theorem encode_of_decodeDesc {d : Desc} {i : Instr} (h : decodeDesc d = .ok i) : encode i = .desc96 d := by
  unfold decodeDesc at h
  split at h
  · cases h
  rename_i hr
  have hfields := encodeDesc_fields (not_not.1 hr)
  split at h
  case h_1 => cases h
  case h_2 hk hs =>
    split_ifs at h with hsrc
    cases h
    rw [hk, hs, not_not.1 hsrc] at hfields
    exact congrArg PortWord.desc96 hfields
  case h_3 hk hs | h_4 hk hs =>
    split_ifs at h with hc
    cases h
    rw [hk, hs, not_not.1 hc] at hfields
    exact congrArg PortWord.desc96 hfields

/-- The register space carries micro-operations only (R70). -/
theorem not_isCommand_of_decodeUop {u : Uop} {i : Instr} (h : decodeUop u = .ok i) : isCommand i = false := by
  simp only [decodeUop] at h
  split_ifs at h <;> cases h <;> rfl

/-- A command is handed over as a descriptor, and that descriptor is the one ISSUE latches. -/
theorem commandDesc_of_decodePort {p : PortWord} {i : Instr} (h : decodePort p = .ok i) (hi : isCommand i = true) :
    p = .desc96 (commandDesc i) := by
  cases p with
  | desc96 d => simp only [commandDesc, encode_of_decodeDesc h]
  | uop40 u => simp [not_isCommand_of_decodeUop h] at hi
  | pseudo => cases h; cases hi

end Sys2Proof.Machine
end

section
/-! PROOFS. What a micro-operation and a row of SEQ leave unchanged (spec/10_state.md R20, R30; R90 to R95, R131, R150,
R167). -/

namespace Sys2Proof.Machine

/-- A WRSLOT writes its slot only. -/
theorem writeSlot_get_of_ne (s : State) (i : BitVec 4) (w : Word) (j : Nat) (hj : j < 16) (h : i.toNat ≠ j) :
    (s.writeSlot i w).slots[j] = s.slots[j] ∧ (s.writeSlot i w).slotWritten[j] = s.slotWritten[j] := by
  rw [writeSlot_slots_get, writeSlot_written_get, if_neg h, if_neg h]
  exact ⟨rfl, rfl⟩

theorem toNat_setWidth_idx {i : Idx} (h : i.toNat < 16) : (i.setWidth 4).toNat = i.toNat := by
  rw [BitVec.toNat_setWidth]
  exact Nat.mod_eq_of_lt h

/-- Settles O38, by what each micro-operation does. -/
theorem microOperationsFrame : Obligations.MicroOperationsFrame := by
  intro i s t hi h
  cases exec_eq_next h with
  | fill | wrpix | wrpixs => cases hi
  | rdbusy | start | startNop | setlen | waitidlePasses | waitidleHolds => simp
  | @wrslot n w hp hb => simpa using writeSlot_get_of_ne s n w

/-- Settles O40, by the kinds of row. -/
theorem sequencerFrame : Obligations.SequencerFrame := by
  intro s t h
  cases seqStep_eq_next h with
  | idle | held | passed => simp
  | entry rem full ptr fw p hp hfill hsequence => simp +contextual [hp, hfill, hsequence]
  | length v idx p hp hb hidx => simp +contextual [hp, hidx]
  | slot w ptr p hp hb hi hptr =>
    have hslots := writeSlot_get_of_ne s (s.idx.setWidth 4) w
    rw [toNat_setWidth_idx hi] at hslots
    simpa +contextual [hp, hptr] using hslots
  | start rem full p hp hb hs hrem hfull => simp +contextual [hp, hrem, hfull]

end Sys2Proof.Machine
end

section
/-! PROOFS. After the entry phase `DESC` is dead (spec/10_state.md R27): no row but an entry depends on it. -/

namespace Sys2Proof.Machine

/-- `DESC <- D`, and nothing else. -/
def State.setDesc (s : State) (d : Desc) : State := { s with desc := d }

theorem mapNext_mapNext (o : Result) (f g : State → State) :
    mapNext (mapNext o f) g = mapNext o fun t => g (f t) := by
  cases o <;> rfl

theorem opSetLen_setDesc (v : Len) (s : State) (d : Desc) :
    opSetLen v (s.setDesc d) = mapNext (opSetLen v s) (·.setDesc d) := by
  unfold opSetLen
  rw [apply_ite (mapNext · (·.setDesc d))]
  rfl

theorem opWrSlotAt_setDesc (i : Idx) (w : Word) (s : State) (d : Desc) :
    opWrSlotAt i w (s.setDesc d) = mapNext (opWrSlotAt i w s) (·.setDesc d) := by
  unfold opWrSlotAt opWrSlot
  simp only [apply_ite (mapNext · (·.setDesc d))]
  rfl

theorem opStart_setDesc (s : State) (d : Desc) : opStart (s.setDesc d) = mapNext (opStart s) (·.setDesc d) := by
  unfold opStart
  simp only [apply_ite (mapNext · (·.setDesc d))]
  rfl

theorem waitRow_setDesc (p : Phase) (s : State) (d : Desc) :
    waitRow p (s.setDesc d) = mapNext (waitRow p s) (·.setDesc d) := by
  unfold waitRow
  rw [apply_ite (mapNext · (·.setDesc d))]
  rfl

theorem lenRow_setDesc (v : Len) (p : Phase) (s : State) (d : Desc) :
    lenRow v p (s.setDesc d) = mapNext (lenRow v p s) (·.setDesc d) := by
  simp only [lenRow, opSetLen_setDesc, mapNext_mapNext]
  rfl

theorem lenRow0_setDesc (v : Len) (p : Phase) (s : State) (d : Desc) :
    lenRow0 v p (s.setDesc d) = mapNext (lenRow0 v p s) (·.setDesc d) := by
  simp only [lenRow0, opSetLen_setDesc, mapNext_mapNext]
  rfl

theorem slotRow_setDesc (w : Word) (n : Nat) (p q : Phase) (s : State) (d : Desc) :
    slotRow w n p q (s.setDesc d) = mapNext (slotRow w n p q s) (·.setDesc d) := by
  simp only [slotRow, opWrSlotAt_setDesc, mapNext_mapNext]
  rfl

theorem loadRow_setDesc (w : Option Word) (k : Word) (n : Nat) (p q : Phase) (s : State) (d : Desc) :
    loadRow w k n p q (s.setDesc d) = mapNext (loadRow w k n p q s) (·.setDesc d) := by
  cases w with
  | none => rfl
  | some w =>
    simp only [loadRow, slotRow_setDesc, mapNext_mapNext]
    rfl

theorem startRow_setDesc {f : State → State} {d : Desc} (hf : ∀ t : State, f (t.setDesc d) = (f t).setDesc d)
    (s : State) : startRow f (s.setDesc d) = mapNext (startRow f s) (·.setDesc d) := by
  simp only [startRow, opStart_setDesc, mapNext_mapNext, hf]

/-- Settles O37: outside the entry phases every phase is a row that does not depend on `DESC`. -/
theorem descIsDeadAfterEntry : Obligations.DescIsDeadAfterEntry := by
  intro s d hentry
  change seqStep (s.setDesc d) = mapNext (seqStep s) (·.setDesc d)
  have hphase : (s.setDesc d).phase = s.phase := rfl
  unfold seqStep
  rw [hphase]
  cases hp : s.phase
  case idle => rfl
  case fEntry | wEntry | sEntry => simp [hp, Phase.isEntry] at hentry
  case fRwait | fPwait | fLwait | wFwait | wTwait | sAwait | sBwait | sCwait => exact waitRow_setDesc _ s d
  case fRlen | fLlen => exact lenRow_setDesc _ _ s d
  case wFlen | wTlen | sAlen | sBlen | sClen => exact lenRow0_setDesc _ _ s d
  case fRslot | fPslot => exact slotRow_setDesc _ _ _ _ s d
  case wFslot | wTslot | sAslot | sBslot => exact loadRow_setDesc _ _ _ _ _ s d
  case sCslot =>
    change (if lastOdd s then _ else _) = mapNext (if lastOdd s then _ else _) _
    split
    all_goals exact loadRow_setDesc _ _ _ _ _ s d
  case fRstart | fLstart | wFstart | wTstart | sAstart | sBstart | sCstart => exact startRow_setDesc (fun _ => rfl) s

end Sys2Proof.Machine
end

section
/-! PROOFS. What a step of the machine does to `TX`, `BUSY` and `pc` (spec/10_state.md R22, R26, R29). -/

namespace Sys2Proof.Machine

/-! ### The HOST's part -/

theorem Executed.tx_eq {i : Instr} {s t : State} (h : Executed s i t) : t.tx = s.tx := by
  cases h <;> simp

/-- An instruction of the HOST changes `BUSY` only by the START of a burst. -/
theorem Executed.busy_eq_or_start {i : Instr} {s t : State} (h : Executed s i t) :
    t.busy = s.busy ∨ (i = .start true ∧ s.phase = .idle ∧ startable s = true ∧ t = s.beginBurst) := by
  cases h with
  | start hp hb hs => exact .inr ⟨rfl, hp, hs, rfl⟩
  | fill | wrpix | wrpixs | rdbusy | startNop | setlen | wrslot | waitidlePasses | waitidleHolds => exact .inl rfl

/-- An instruction of the HOST changes `pc` only by ISSUE, which latches the command's descriptor. -/
theorem Executed.phase_eq_or_issue {i : Instr} {s t : State} (h : Executed s i t) :
    t.phase = s.phase ∨ (isCommand i = true ∧ t.phase.isEntry = true ∧ t.desc = commandDesc i) := by
  cases h with
  | fill | wrpix | wrpixs => exact .inr ⟨rfl, rfl, rfl⟩
  | rdbusy | start | startNop | setlen | wrslot | waitidlePasses | waitidleHolds => exact .inl rfl

theorem HostActed.tx_eq_or_reset {act : HostAct} {s t : State} (h : HostActed s act t) :
    t.tx = s.tx ∨ (act = .reset ∧ t.tx = []) := by
  cases h with
  | op hd hx => exact .inl hx.tx_eq
  | awaitDone | readActive | poke => exact .inl rfl
  | reset => exact .inr ⟨rfl, rfl⟩

theorem HostActed.busy_eq_or_start_or_reset {act : HostAct} {s t : State} (h : HostActed s act t) :
    t.busy = s.busy ∨ (act = .reset ∧ t.busy = false) ∨
      ((∃ p, act = .op p ∧ decodePort p = .ok (.start true)) ∧ s.phase = .idle ∧ startable s = true ∧
        t = s.beginBurst) := by
  cases h with
  | op hd hx =>
    obtain hbusy | ⟨rfl, hstart⟩ := hx.busy_eq_or_start
    · exact .inl hbusy
    · exact .inr (.inr ⟨⟨_, rfl, hd⟩, hstart⟩)
  | awaitDone | readActive | poke => exact .inl rfl
  | reset => exact .inr (.inl ⟨rfl, rfl⟩)

theorem HostActed.phase_eq_or_idle_or_issue {act : HostAct} {s t : State} (h : HostActed s act t) :
    t.phase = s.phase ∨ t.phase = .idle ∨ (t.phase.isEntry = true ∧ act = .op (.desc96 t.desc)) := by
  cases h with
  | op hd hx =>
    obtain hphase | ⟨hi, hentry, hdesc⟩ := hx.phase_eq_or_issue
    · exact .inl hphase
    · refine .inr (.inr ⟨hentry, ?_⟩)
      rw [hdesc, commandDesc_of_decodePort hd hi]
  | awaitDone | readActive | poke => exact .inl rfl
  | reset => exact .inr (.inl rfl)

/-! ### SEQ's part -/

theorem SeqMoved.tx_eq {s t : State} (h : SeqMoved s t) : t.tx = s.tx := by
  cases h <;> simp

/-- SEQ changes `BUSY` only at a START row. -/
theorem SeqMoved.busy_eq_or_start {s t : State} (h : SeqMoved s t) :
    t.busy = s.busy ∨ (s.phase.isStart = true ∧ startable s = true ∧ t.busy = true ∧
      t.inflight = payload s.len s.slots ∧ t.len = s.len ∧ t.slots = s.slots) := by
  cases h with
  | start rem full p hp hb hs => exact .inr ⟨hp, hs, rfl, rfl, rfl, rfl⟩
  | idle | entry | held | passed | length | slot => exact .inl (by simp)

/-! ### The machine -/

/-- Settles O19, by the agent that moved. -/
theorem txGrowsOnlyByWholeBursts : Obligations.TxGrowsOnlyByWholeBursts := by
  intro s t h
  cases step_eq_next_cases h with
  | none => exact .inl rfl
  | host l n hh ha =>
    obtain htx | ⟨rfl, htx⟩ := ha.tx_eq_or_reset
    · exact .inl htx
    · exact .inr (.inr ⟨htx, _, hh⟩)
  | seq l n hp hm => exact .inl hm.tx_eq
  | burst l n hb => exact .inr (.inl ⟨hb, rfl, rfl, rfl⟩)

/-- A step in which `BUSY` rises is a START, of SEQ or of the HOST. -/
theorem Stepped.start_of_busy_rises {s t : State} (h : Stepped s t) (hs : s.busy = false) (ht : t.busy = true) :
    (s.phase.isStart = true ∨
      (s.phase = .idle ∧ ∃ p rest, s.host = .op p :: rest ∧ decodePort p = .ok (.start true))) ∧
    t.inflight = payload s.len s.slots ∧ t.len = s.len ∧ t.slots = s.slots ∧ startable s = true := by
  cases h with
  | none => simp [hs] at ht
  | host l n hh ha =>
    obtain hbusy | ⟨-, hbusy⟩ | ⟨⟨p, rfl, hd⟩, hp, hst, rfl⟩ := ha.busy_eq_or_start_or_reset
    · simp [hbusy, hs] at ht
    · simp [hbusy] at ht
    · exact ⟨.inr ⟨hp, p, _, hh, hd⟩, rfl, rfl, rfl, hst⟩
  | seq l n hp hm =>
    obtain hbusy | ⟨hstart, hst, -, hinflight, hlen, hslots⟩ := hm.busy_eq_or_start
    · simp [hbusy, hs] at ht
    · exact ⟨.inl hstart, hinflight, hlen, hslots, hst⟩
  | burst l n hb => simp at ht

/-- A step in which `BUSY` falls completes the burst or resets the block. -/
theorem Stepped.completion_of_busy_falls {s t : State} (h : Stepped s t) (hs : s.busy = true) (ht : t.busy = false) :
    t.tx = s.tx ++ s.inflight ∨ ∃ rest, s.host = .reset :: rest := by
  cases h with
  | none => simp [hs] at ht
  | host l n hh ha =>
    obtain hbusy | ⟨rfl, -⟩ | ⟨-, -, -, rfl⟩ := ha.busy_eq_or_start_or_reset
    · simp [hbusy, hs] at ht
    · exact .inr ⟨_, hh⟩
    · simp at ht
  | seq l n hp hm =>
    obtain hbusy | ⟨-, -, hbusy, -⟩ := hm.busy_eq_or_start
    · simp [hbusy, hs] at ht
    · simp [hbusy] at ht
  | burst => exact .inl rfl

/-- Settles O20: each direction by the agent that moved. -/
theorem busyRisesByStartFallsByCompletion : Obligations.BusyRisesByStartFallsByCompletion := fun _ _ h =>
  ⟨(step_eq_next_cases h).start_of_busy_rises, (step_eq_next_cases h).completion_of_busy_falls⟩

/-- Settles O36: SEQ has no step at `pc = IDLE`, BURST leaves `pc`, and the HOST changes it by ISSUE or reset. -/
theorem phaseLeavesIdleOnlyByIssue : Obligations.PhaseLeavesIdleOnlyByIssue := by
  intro s t h hs ht
  cases step_eq_next_cases h with
  | none => exact absurd hs ht
  | host l n hh ha =>
    obtain hphase | hphase | ⟨hentry, rfl⟩ := ha.phase_eq_or_idle_or_issue
    · exact absurd (hphase.trans hs) ht
    · exact absurd hphase ht
    · exact ⟨hentry, t.desc, _, hh, rfl⟩
  | seq l n hp hm => exact absurd hs hp
  | burst l n hb => exact absurd hs ht

end Sys2Proof.Machine
end

section
/-! PROOFS. The source-buffer space and the register space as the HOST meets them (spec/20_memory.md R51, R52, R54, R57,
R58). -/

namespace Sys2Proof.Machine

/-! ### The register space -/

theorem slotOffset_toNat (i : BitVec 4) : (slotOffset i).toNat = 0x40 + 4 * i.toNat := by
  revert i; decide

/-- A slot's offset is aligned, has bit 6 set and carries the slot's index above its two low bits. -/
theorem slotOffset_fields (i : BitVec 4) :
    (slotOffset i).extractLsb' 0 2 = 0 ∧ (slotOffset i).getLsbD 6 = true ∧ (slotOffset i).extractLsb' 2 4 = i := by
  revert i; decide

/-- Settles O8: the decoder reads the index out of the offset. -/
theorem slotOffsets : Obligations.SlotOffsets := by
  intro i w
  obtain ⟨haligned, hslot, hindex⟩ := slotOffset_fields i
  refine ⟨slotOffset_toNat i, ?_⟩
  simp [decodeUop, uopWr_encodeUop, uopOff_encodeUop, uopData_encodeUop, haligned, hslot, hindex]

/-! ### Reads -/

/-- Settles O27, by the definitions of the wide reads. -/
theorem sourceReadsLittleEndian : Obligations.SourceReadsLittleEndian := by
  intro m a b0 b1 b2 b3 h0 h1 h2 h3
  exact ⟨by simp only [readHalf, h0, h1], by simp only [readWord, h0, h1, h2, h3]⟩

/-! ### Changes by the HOST -/

/-- Settles O29: a change outside the region is a write of the one byte. -/
theorem hostChangesOnlyFreeBytes : Obligations.HostChangesOnlyFreeBytes := by
  intro s a b
  constructor
  · intro hin hchange
    simp [hostPoke, hin, hchange]
  · intro hout
    have hpoke : hostPoke a b s = .next (s.setMem (memSet s.mem a.toNat b)) := by simp [hostPoke, hout]
    exact ⟨_, hpoke, rfl, fun x => memRead_memSet s.mem a.toNat x b⟩

/-! ### Source regions at ISSUE -/

theorem alignedFor_iff {p : Params} {a n : Word} :
    alignedFor p a n = true ↔ (p.srcAlign = .four → n = 0 ∨ a.extractLsb' 0 2 = 0) := by
  unfold alignedFor
  cases p.srcAlign <;> simp

theorem execWrpix_of_not_aligned {a n : Word} {s : State} (hs : s.params.busMode = .serial) (hp : s.phase = .idle)
    (ha : alignedFor s.params a n = false) : execWrpix a n s = .refused .sourceMisaligned := by
  simp [execWrpix, onSerial_serial _ hs, hp, ha]

theorem execWrpix_of_not_wellFormed {a n : Word} {s : State} (hs : s.params.busMode = .serial)
    (hp : s.phase = .idle) (ha : alignedFor s.params a n = true) (hw : ¬ (Instr.wrpix a n).WellFormed) :
    execWrpix a n s = .refused .sourcePassesTop := by
  rw [execWrpix, onSerial_serial _ hs, if_neg (not_not.2 hp), if_neg (by simp [ha]), if_neg hw]

theorem execWrpixs_of_not_wellFormed {a n : Word} {s : State} (hs : s.params.busMode = .serial)
    (hp : s.phase = .idle) (hw : ¬ (Instr.wrpixs a n).WellFormed) :
    execWrpixs a n s = .refused .sourcePassesTop := by
  rw [execWrpixs, onSerial_serial _ hs, if_neg (not_not.2 hp), if_neg hw]

/-- A region that passes the top of the address space has a byte, so the command is outside the contract. -/
theorem not_wellFormed_of_passesTop {i : Instr} (hsrc : i.source < 2 ^ 32)
    (h : 2 ^ 32 < i.source + i.bytesRead) : ¬ i.WellFormed := by
  rintro (hzero | hfits) <;> omega

/-- Settles O30: each clause is the check of ISSUE that comes first. -/
theorem badSourceRegionRefused : Obligations.BadSourceRegionRefused := by
  intro s src count hs hp hcount
  refine ⟨fun hfour hmis => ?_, fun haligned htop => ?_, fun htop => ?_⟩
  · have ha : alignedFor s.params src count = false := by
      rw [← Bool.not_eq_true, alignedFor_iff]
      exact fun h => (h hfour).elim hcount hmis
    exact execWrpix_of_not_aligned hs hp ha
  · have ha : alignedFor s.params src count = true := alignedFor_iff.2 fun hfour => .inr (haligned hfour)
    exact execWrpix_of_not_wellFormed hs hp ha (not_wellFormed_of_passesTop src.isLt htop)
  · exact execWrpixs_of_not_wellFormed hs hp (not_wellFormed_of_passesTop src.isLt htop)

end Sys2Proof.Machine
end

section
/-! PROOFS. The reads of SEQ as reads of some bytes at `PTR` (spec/20_memory.md R51; 44_byte_swap_adapter.md R160), and
where those bytes stand in the active command's read region (R56, R58). -/

namespace Sys2Proof.Machine

/-! ### Reads of some bytes -/

/-- `read` is a read of the `n` bytes at `a`: it depends on them only, and has a value where all are readable. -/
structure ReadsBytes (read : Memory → Option Word) (a : Word) (n : Nat) : Prop where
  congr : ∀ m m' : Memory,
    (∀ k, k < n → readByte m (a + BitVec.ofNat 32 k) = readByte m' (a + BitVec.ofNat 32 k)) → read m = read m'
  isSome : ∀ m : Memory, (∀ k, k < n → (readByte m (a + BitVec.ofNat 32 k)).isSome = true) → (read m).isSome = true

theorem readsBytes_const (v a : Word) : ReadsBytes (fun _ => some v) a 0 := ⟨fun _ _ _ => rfl, fun _ _ => rfl⟩

/-- `MemRead(a, 4)` and `NEXTWORD()` are one read of four bytes, put together in two orders (R51, R160). -/
def readFour (f : Byte → Byte → Byte → Byte → Word) (m : Memory) (a : Word) : Option Word :=
  match readByte m a, readByte m (a + 1), readByte m (a + 2), readByte m (a + 3) with
  | some b0, some b1, some b2, some b3 => some (f b0 b1 b2 b3)
  | _, _, _, _ => none

theorem readsBytes_readFour (f : Byte → Byte → Byte → Byte → Word) (a : Word) :
    ReadsBytes (fun m => readFour f m a) a 4 where
  congr m m' h := by
    have h0 : readByte m a = readByte m' a := by simpa using h 0 (by omega)
    have h1 : readByte m (a + 1) = readByte m' (a + 1) := h 1 (by omega)
    have h2 : readByte m (a + 2) = readByte m' (a + 2) := h 2 (by omega)
    have h3 : readByte m (a + 3) = readByte m' (a + 3) := h 3 (by omega)
    simp only [readFour, h0, h1, h2, h3]
  isSome m h := by
    obtain ⟨b0, h0⟩ : ∃ b, readByte m a = some b := Option.isSome_iff_exists.1 (by simpa using h 0 (by omega))
    obtain ⟨b1, h1⟩ : ∃ b, readByte m (a + 1) = some b := Option.isSome_iff_exists.1 (h 1 (by omega))
    obtain ⟨b2, h2⟩ : ∃ b, readByte m (a + 2) = some b := Option.isSome_iff_exists.1 (h 2 (by omega))
    obtain ⟨b3, h3⟩ : ∃ b, readByte m (a + 3) = some b := Option.isSome_iff_exists.1 (h 3 (by omega))
    simp only [readFour, h0, h1, h2, h3, Option.isSome_some]

theorem readsBytes_readWord (a : Word) : ReadsBytes (fun m => readWord m a) a 4 := readsBytes_readFour _ a

theorem readsBytes_nextWord (s : State) : ReadsBytes (fun m => nextWord (s.setMem m)) s.ptr 4 :=
  readsBytes_readFour swapWord s.ptr

theorem readsBytes_nextHalf (s : State) : ReadsBytes (fun m => nextHalf (s.setMem m)) s.ptr 2 where
  congr m m' h := by
    have h0 : readByte m s.ptr = readByte m' s.ptr := by simpa using h 0 (by omega)
    have h1 : readByte m (s.ptr + 1) = readByte m' (s.ptr + 1) := h 1 (by omega)
    simp only [nextHalf, State.setMem_mem, State.setMem_ptr, h0, h1]
  isSome m h := by
    obtain ⟨b0, h0⟩ : ∃ b, readByte m s.ptr = some b := Option.isSome_iff_exists.1 (by simpa using h 0 (by omega))
    obtain ⟨b1, h1⟩ : ∃ b, readByte m (s.ptr + 1) = some b := Option.isSome_iff_exists.1 (h 1 (by omega))
    simp only [nextHalf, State.setMem_mem, State.setMem_ptr, h0, h1, Option.isSome_some]

/-! ### The bytes at `PTR` -/

/-- `PTR` and the bytes after it, as far as the read region goes, do not wrap around (R58). -/
theorem toNat_ptr_add {s : State} {i k : Nat} (hptr : pointsAfter s i)
    (hk : regionStart s.desc + (2 * ((descCount s.desc).toNat - s.rem.toNat) + 4 * i + k) < 2 ^ 32) :
    (s.ptr + BitVec.ofNat 32 k).toNat =
      regionStart s.desc + (2 * ((descCount s.desc).toNat - s.rem.toNat) + 4 * i + k) := by
  obtain ⟨hrem, -, hptr⟩ := hptr
  simp only [hptr, regionStart, BitVec.toNat_add, BitVec.toNat_mul, BitVec.toNat_sub, BitVec.toNat_ofNat,
    BitVec.reduceToNat] at hk ⊢
  omega

/-- A byte of the word at `PTR` is in the read region where it is among the bytes left after the pixels already
loaded. -/
theorem inRegion_ptr_add {s : State} {swap : Bool} {i k left : Nat} (hactive : s.phase ≠ .idle)
    (hdesc : sequenceDesc s swap) (hptr : pointsAfter s i)
    (hsize : regionSize s.desc = 2 * ((descCount s.desc).toNat - s.rem.toNat) + left) (hk : 4 * i + k < left) :
    inRegion s (s.ptr + BitVec.ofNat 32 k).toNat = true := by
  obtain ⟨-, -, hfits⟩ := hdesc
  have ha := toNat_ptr_add (k := k) hptr (by omega)
  simp only [inRegion, State.seqActive, Bool.and_eq_true, decide_eq_true_eq]
  exact ⟨⟨hactive, by omega⟩, by omega⟩

/-- WRPIX has whole words left to read for its `REM` pixels (R56). -/
theorem inRegion_wrpix {s : State} {i k : Nat} (hactive : s.phase ≠ .idle) (hdesc : sequenceDesc s false)
    (hptr : pointsAfter s i) (hk : 4 * i + k < 4 * wordsFor s.rem.toNat) :
    inRegion s (s.ptr + BitVec.ofNat 32 k).toNat = true := by
  refine inRegion_ptr_add hactive hdesc hptr ?_ hk
  obtain ⟨hkind, hswap, -⟩ := hdesc
  obtain ⟨hle, hbursts, -⟩ := hptr
  simp only [regionSize, hkind, hswap, wordsFor, if_true, Bool.false_eq_true, if_false]
  omega

/-- WRPIXS has two bytes left to read for each of its `REM` pixels (R56). -/
theorem inRegion_wrpixs {s : State} {i k : Nat} (hactive : s.phase ≠ .idle) (hdesc : sequenceDesc s true)
    (hptr : pointsAfter s i) (hk : 4 * i + k < 2 * s.rem.toNat) :
    inRegion s (s.ptr + BitVec.ofNat 32 k).toNat = true := by
  refine inRegion_ptr_add hactive hdesc hptr ?_ hk
  obtain ⟨hkind, hswap, -⟩ := hdesc
  obtain ⟨hle, -, -⟩ := hptr
  simp only [regionSize, hkind, hswap, if_true]
  omega

theorem isSome_memRead_of_inRegion {s : State} {a : Nat}
    (h : readable s.mem (regionStart s.desc) (regionSize s.desc) = true) (ha : inRegion s a = true) :
    (memRead s.mem a).isSome = true := by
  simp only [inRegion, Bool.and_eq_true, decide_eq_true_eq] at ha
  obtain ⟨⟨-, hlo⟩, hhi⟩ := ha
  have hbyte := List.all_eq_true.1 h (a - regionStart s.desc) (List.mem_range.2 (by omega))
  rwa [Nat.add_sub_cancel' hlo] at hbyte

end Sys2Proof.Machine
end

section
/-! PROOFS. What the invariant gives SEQ at each row (spec/20_memory.md R53, R56, R57; 60_exceptions.md R186, R194): a
row that loads nothing has a next state whatever the memory holds, and a load row depends on bytes of the active
command's read region only. -/

namespace Sys2Proof.Machine

/-! ### The rows -/

/-- What SEQ may answer with each memory in the place of its own (R53, R56, R194): it reads bytes of the active
command's read region at `PTR`, none at a row that loads nothing, and stops where they cannot be read; else the next
state depends on the memory by the word read only. -/
def ReadsOnlyRegion (s : State) (answer : Memory → Result) : Prop :=
  ∃ (read : Memory → Option Word) (n : Nat) (next : Word → State), ReadsBytes read s.ptr n ∧
    (∀ k, k < n → inRegion s (s.ptr + BitVec.ofNat 32 k).toNat = true) ∧
    ∀ m, answer m = (read m).elim (.fault .sourceUnreadable) fun v => .next ((next v).setMem m)

/-- A row that loads nothing. -/
theorem ReadsOnlyRegion.of_next {s : State} {answer : Memory → Result} (t : State)
    (h : ∀ m, answer m = .next (t.setMem m)) : ReadsOnlyRegion s answer :=
  ⟨fun _ => some 0, 0, fun _ => t, readsBytes_const 0 s.ptr, fun _ hk => absurd hk (Nat.not_lt_zero _), h⟩

/-- An entry row: its next state and the memory are independent. -/
theorem ReadsOnlyRegion.of_mapNext {s t : State} {row : State → Result} (h : row s = .next t)
    (hm : ∀ m, row (s.setMem m) = mapNext (row s) (·.setMem m)) : ReadsOnlyRegion s fun m => row (s.setMem m) :=
  .of_next t fun m => by rw [hm, h, mapNext_next]

theorem readsOnlyRegion_waitRow (p : Phase) (s : State) : ReadsOnlyRegion s fun m => waitRow p (s.setMem m) :=
  .of_next (if s.busy then s else s.setPhase p) fun m =>
    waitRow_eq_next.2 (apply_ite (State.setMem · m) (s.busy = true) s (s.setPhase p))

theorem readsOnlyRegion_lenRow (v : Len) (p : Phase) {s : State} (hb : s.busy = false) :
    ReadsOnlyRegion s fun m => lenRow v p (s.setMem m) :=
  .of_next ((s.writeLen v).setPhase p) fun _ => lenRow_eq_next.2 ⟨hb, rfl⟩

theorem readsOnlyRegion_lenRow0 (v : Len) (p : Phase) {s : State} (hb : s.busy = false) :
    ReadsOnlyRegion s fun m => lenRow0 v p (s.setMem m) :=
  .of_next (((s.writeLen v).setIdx 0).setPhase p) fun _ => lenRow0_eq_next.2 ⟨hb, rfl⟩

/-- The state after the slot row of `SLOT[IDX]`, with the next phase as the row has it. -/
def afterSlot (s : State) (limit : Nat) (self after : Phase) (w : Word) : State :=
  ((s.writeSlot (s.idx.setWidth 4) w).setIdx (s.idx + 1)).setPhase (if (s.idx + 1).toNat < limit then self else after)

theorem slotRow_setMem {w : Word} {limit : Nat} {p q : Phase} {s : State} (hb : s.busy = false)
    (hi : s.idx.toNat < 16) (m : Memory) :
    slotRow w limit p q (s.setMem m) = .next ((afterSlot s limit p q w).setMem m) :=
  slotRow_eq_next.2 ⟨hi, hb, rfl⟩

theorem readsOnlyRegion_slotRow (w : Word) (limit : Nat) (p q : Phase) {s : State} (hb : s.busy = false)
    (hi : s.idx.toNat < 16) : ReadsOnlyRegion s fun m => slotRow w limit p q (s.setMem m) :=
  .of_next (afterSlot s limit p q w) (slotRow_setMem hb hi)

/-- A load row of `n` bytes at `PTR`, all of them in the read region. -/
theorem readsOnlyRegion_loadRow {read : Memory → Option Word} {n : Nat} (k : Word) (limit : Nat) (p q : Phase)
    {s : State} (hb : s.busy = false) (hi : s.idx.toNat < 16) (hread : ReadsBytes read s.ptr n)
    (hin : ∀ k, k < n → inRegion s (s.ptr + BitVec.ofNat 32 k).toNat = true) :
    ReadsOnlyRegion s fun m => loadRow (read m) k limit p q (s.setMem m) := by
  refine ⟨read, n, fun v => (afterSlot s limit p q v).setPtr (s.ptr + k), hread, hin, fun m => ?_⟩
  beta_reduce
  cases read m with
  | none => rfl
  | some v => exact congrArg (mapNext · fun t => t.setPtr (s.ptr + k)) (slotRow_setMem hb hi m)

/-- A START row with its burst loaded: `LEN` covers the slots written. -/
theorem readsOnlyRegion_startRow {len : Len} {n : Nat} {s : State} {f : State → State}
    (hf : ∀ (t : State) (m : Memory), f (t.setMem m) = (f t).setMem m) (hl : loaded s len n)
    (hn : len.toNat / 32 + 1 = n) : ReadsOnlyRegion s fun m => startRow f (s.setMem m) := by
  obtain ⟨hb, hwritten, rfl, hheld⟩ := hl
  have hst : startable s = true := startable_iff.2 ⟨hwritten, hn ▸ hheld⟩
  exact .of_next (f s.beginBurst) fun m => startRow_eq_next.2 ⟨hb, hst, (hf s.beginBurst m).symm⟩

/-! ### Every row -/

/-- A burst of 1 to 31 pixels covers exactly the slots they need (R118, R119). -/
theorem lenVal_covers {s : State} {hi : Nat} (h : remIn s 1 hi) (hhi : hi ≤ 31) :
    (lenVal s.rem).toNat / 32 + 1 = wordsFor s.rem.toNat := by
  obtain ⟨hlo, hrem⟩ := h
  simp only [lenVal, wordsFor, BitVec.toNat_setWidth, BitVec.toNat_sub, BitVec.toNat_mul, BitVec.reduceToNat]
  omega

theorem lastOdd_iff {s : State} :
    lastOdd s = true ↔ s.idx.toNat + 1 = wordsFor s.rem.toNat ∧ s.rem.toNat % 2 = 1 := by
  simp [lastOdd, BitVec.getLsbD, Nat.testBit_zero]

/-- `S_CSLOT`: only the last pixel of an odd count is read as a half-word (R160, R167). -/
theorem readsOnlyRegion_swapCslot {s : State} (hactive : s.phase ≠ .idle) (h : phaseInvAt s .sCslot) :
    ReadsOnlyRegion s fun m => swapCslot (s.setMem m) := by
  obtain ⟨hdesc, ⟨-, hrem⟩, hptr, hb, -, -, hi, -⟩ := h
  have hi16 : s.idx.toNat < 16 := by unfold wordsFor at hi; omega
  have hlastOdd : ∀ m, lastOdd (s.setMem m) = lastOdd s := fun _ => rfl
  simp only [swapCslot, hlastOdd]
  cases hlast : lastOdd s with
  | true =>
    obtain ⟨hlast, hodd⟩ := lastOdd_iff.1 hlast
    exact readsOnlyRegion_loadRow _ (wordsFor s.rem.toNat) _ _ hb hi16 (readsBytes_nextHalf s) fun k hk =>
      inRegion_wrpixs hactive hdesc hptr (by unfold wordsFor at hlast; omega)
  | false =>
    rw [← Bool.not_eq_true, lastOdd_iff] at hlast
    exact readsOnlyRegion_loadRow _ (wordsFor s.rem.toNat) _ _ hb hi16 (readsBytes_nextWord s) fun k hk =>
      inRegion_wrpixs hactive hdesc hptr (by unfold wordsFor at hi hlast; omega)

/-- What the invariant gives SEQ at every phase: the one place where the phase tables are taken apart for it. -/
theorem BlockInv.readsOnlyRegion {s : State} (hinv : BlockInv s) :
    ReadsOnlyRegion s fun m => seqStep (s.setMem m) := by
  obtain ⟨-, -, hphase⟩ := hinv
  simp only [seqStep, State.setMem_phase]
  cases hp : s.phase <;> simp only [hp] at hphase ⊢
  case idle => exact .of_next s fun _ => rfl
  case fEntry => exact .of_mapNext (row := fillEntry) rfl fun _ => rfl
  case wEntry => exact .of_mapNext (row := streamEntry) rfl fun _ => rfl
  case sEntry => exact .of_mapNext (row := swapEntry) rfl fun _ => rfl
  case fPwait => exact readsOnlyRegion_waitRow (if s.idx.toNat < 16 then .fPslot else .fLwait) s
  case fRwait | fLwait | wFwait | wTwait | sAwait | sBwait | sCwait => exact readsOnlyRegion_waitRow _ s
  case fRlen | fLlen =>
    obtain ⟨-, -, -, hb⟩ := hphase
    simp only [fillRlen, fillLlen, State.setMem_rem]
    exact readsOnlyRegion_lenRow _ _ hb
  case wFlen | wTlen | sAlen | sBlen | sClen =>
    obtain ⟨-, -, -, hb⟩ := hphase
    simp only [streamFlen, streamTlen, swapAlen, swapBlen, swapClen, State.setMem_rem]
    exact readsOnlyRegion_lenRow0 _ _ hb
  case fRslot =>
    obtain ⟨⟨-, hrem⟩, -, hb, -, -, hi, -⟩ := hphase
    exact readsOnlyRegion_slotRow s.fw (wordsFor s.rem.toNat) _ _ hb (by unfold wordsFor at hi; omega)
  case fPslot =>
    obtain ⟨-, -, hb, hi, -⟩ := hphase
    exact readsOnlyRegion_slotRow s.fw 16 _ _ hb hi
  case fRstart =>
    obtain ⟨hrem, -, -, hl⟩ := hphase
    exact readsOnlyRegion_startRow (f := fun t => t.setPhase (if s.full = 0 then .idle else .fPwait))
      (fun _ _ => rfl) hl (lenVal_covers hrem (by omega))
  case fLstart =>
    obtain ⟨-, -, hl⟩ := hphase
    exact readsOnlyRegion_startRow
      (f := fun t => (t.setFull (s.full - 32)).setPhase (if s.full - 32 ≠ 0 then .fLwait else .idle))
      (fun _ _ => rfl) hl rfl
  case wFstart =>
    obtain ⟨-, -, -, hl⟩ := hphase
    exact readsOnlyRegion_startRow (f := fun t => (t.setRem (s.rem - 32)).setPhase (streamSelect (s.rem - 32)))
      (fun _ _ => rfl) hl rfl
  case sAstart =>
    obtain ⟨-, -, -, hl⟩ := hphase
    exact readsOnlyRegion_startRow (f := fun t => (t.setRem (s.rem - 32)).setPhase (tierSelect (s.rem - 32)))
      (fun _ _ => rfl) hl rfl
  case sBstart =>
    obtain ⟨-, -, -, hl⟩ := hphase
    exact readsOnlyRegion_startRow
      (f := fun t => (t.setRem (s.rem - 16)).setPhase (if s.rem - 16 ≠ 0 then .sCwait else .idle))
      (fun _ _ => rfl) hl rfl
  case wTstart | sCstart =>
    obtain ⟨-, hrem, hl⟩ := hphase
    exact readsOnlyRegion_startRow (f := fun t => t.setPhase .idle) (fun _ _ => rfl) hl
      (lenVal_covers hrem (by omega))
  case wFslot =>
    obtain ⟨hdesc, hrem, hptr, hb, -, -, hi, -⟩ := hphase
    exact readsOnlyRegion_loadRow _ _ _ _ hb hi (readsBytes_readWord s.ptr) fun k hk =>
      inRegion_wrpix (by simp [hp]) hdesc hptr (by unfold wordsFor; omega)
  case wTslot =>
    obtain ⟨hdesc, ⟨-, hrem⟩, hptr, hb, -, -, hi, -⟩ := hphase
    have hi16 : s.idx.toNat < 16 := by unfold wordsFor at hi; omega
    exact readsOnlyRegion_loadRow _ (wordsFor s.rem.toNat) _ _ hb hi16 (readsBytes_readWord s.ptr) fun k hk =>
      inRegion_wrpix (by simp [hp]) hdesc hptr (by omega)
  case sAslot =>
    obtain ⟨hdesc, hrem, hptr, hb, -, -, hi, -⟩ := hphase
    exact readsOnlyRegion_loadRow _ _ _ _ hb hi (readsBytes_nextWord s) fun k hk =>
      inRegion_wrpixs (by simp [hp]) hdesc hptr (by omega)
  case sBslot =>
    obtain ⟨hdesc, ⟨hrem, -⟩, hptr, hb, -, -, hi, -⟩ := hphase
    exact readsOnlyRegion_loadRow _ _ _ _ hb (by omega) (readsBytes_nextWord s) fun k hk =>
      inRegion_wrpixs (by simp [hp]) hdesc hptr (by omega)
  case sCslot => exact readsOnlyRegion_swapCslot (by simp [hp]) hphase

/-- Settles O52: what SEQ reads is in the read region, so it is readable. -/
theorem sequencerGoesOnWithReadableBuffer : Obligations.SequencerGoesOnWithReadableBuffer := by
  intro s hinv hreadable
  obtain ⟨read, n, next, hread, hin, hstep⟩ := hinv.readsOnlyRegion
  obtain ⟨v, hv⟩ : ∃ v, read s.mem = some v := Option.isSome_iff_exists.1 <|
    hread.isSome s.mem fun k hk => isSome_memRead_of_inRegion hreadable (hin k hk)
  exact ⟨(next v).setMem s.mem, (hstep s.mem).trans (by rw [hv, Option.elim_some])⟩

/-- Settles O53: two memories that agree on the read region give the same word. -/
theorem sequencerReadsOnlyItsRegion : Obligations.SequencerReadsOnlyItsRegion := by
  intro s m hinv hagree
  obtain ⟨read, n, next, hread, hin, hstep⟩ := hinv.readsOnlyRegion
  have hword : read m = read s.mem := hread.congr m s.mem fun k hk => hagree _ (hin k hk)
  calc
    seqStep (s.setMem m) = (read s.mem).elim (.fault .sourceUnreadable) fun v => .next ((next v).setMem m) :=
      hword ▸ hstep m
    _ = mapNext ((read s.mem).elim (.fault .sourceUnreadable) fun v => .next ((next v).setMem s.mem))
        (·.setMem m) := by cases read s.mem <;> rfl
    _ = mapNext (seqStep s) (·.setMem m) := congrArg (mapNext · (·.setMem m)) (hstep s.mem).symm

end Sys2Proof.Machine
end

section
/-! PROOFS. The encodings (spec/30_encoding.md R71 to R77, R81): which words the decoder of each port takes, said once
as conditions on the fields; the mask and match of a row as the same conditions; and from these the round trip, the rows
and the reserved words. -/

namespace Sys2Proof.Machine

/-! ### A word is its fields -/

/-- Two words that agree in a field agree in each of its bits. -/
theorem getLsbD_eq_of_extractLsb'_eq {w lo len i : Nat} {x y : BitVec w}
    (h : x.extractLsb' lo len = y.extractLsb' lo len) (hlo : lo ≤ i) (hhi : i < lo + len) :
    x.getLsbD i = y.getLsbD i := by
  have hbit := congrArg (·.getLsbD (i - lo)) h
  simpa [BitVec.getLsbD_extractLsb', show i - lo < len by omega, Nat.add_sub_cancel' hlo] using hbit

/-- R71: the six fields cover the 96 bits. -/
theorem desc_eq_iff {d e : Desc} : d = e ↔ descKind d = descKind e ∧ descSwap d = descSwap e ∧
    descReserved d = descReserved e ∧ descColor d = descColor e ∧ descCount d = descCount e ∧
    descSrc d = descSrc e := by
  refine ⟨fun h => by simp [h], fun ⟨hkind, hswap, hreserved, hcolor, hcount, hsrc⟩ => ?_⟩
  apply BitVec.eq_of_getLsbD_eq
  intro i hi
  rcases lt_or_ge i 32 with h | h32
  · exact getLsbD_eq_of_extractLsb'_eq hsrc (by omega) h
  rcases lt_or_ge i 64 with h | h64
  · exact getLsbD_eq_of_extractLsb'_eq hcount h32 h
  rcases lt_or_ge i 80 with h | h80
  · exact getLsbD_eq_of_extractLsb'_eq hcolor h64 h
  rcases lt_or_ge i 94 with h | h94
  · exact getLsbD_eq_of_extractLsb'_eq hreserved h80 h
  obtain rfl | rfl : i = 94 ∨ i = 95 := by omega
  · exact hswap
  · exact hkind

/-- R72: the three fields cover the 40 bits. -/
theorem uop_eq_iff {u v : Uop} : u = v ↔ uopWr u = uopWr v ∧ uopOff u = uopOff v ∧ uopData u = uopData v := by
  refine ⟨fun h => by simp [h], fun ⟨hwr, hoff, hdata⟩ => ?_⟩
  apply BitVec.eq_of_getLsbD_eq
  intro i hi
  rcases lt_or_ge i 32 with h | h32
  · exact getLsbD_eq_of_extractLsb'_eq hdata (by omega) h
  rcases lt_or_ge i 39 with h | h39
  · exact getLsbD_eq_of_extractLsb'_eq hoff h32 h
  obtain rfl : i = 39 := by omega
  exact hwr

theorem encodeDesc_field_eqs (kind swap : Bool) (color : Pixel) (count src : Word) :
    descKind (encodeDesc kind swap color count src) = kind ∧ descSwap (encodeDesc kind swap color count src) = swap ∧
    descReserved (encodeDesc kind swap color count src) = 0 ∧
    descColor (encodeDesc kind swap color count src) = color ∧
    descCount (encodeDesc kind swap color count src) = count ∧ descSrc (encodeDesc kind swap color count src) = src :=
  ⟨descKind_encodeDesc .., descSwap_encodeDesc .., descReserved_encodeDesc .., descColor_encodeDesc ..,
    descCount_encodeDesc .., descSrc_encodeDesc ..⟩

/-- `D AND mask = match`, field by field. -/
theorem desc_and_eq_iff {d m v : Desc} : d &&& m = v ↔
    (descKind d && descKind m) = descKind v ∧ (descSwap d && descSwap m) = descSwap v ∧
    descReserved d &&& descReserved m = descReserved v ∧ descColor d &&& descColor m = descColor v ∧
    descCount d &&& descCount m = descCount v ∧ descSrc d &&& descSrc m = descSrc v := by
  simp only [desc_eq_iff, descKind, descSwap, descReserved, descColor, descCount, descSrc, BitVec.getLsbD_and,
    BitVec.extractLsb'_and]

/-- `U AND mask = match`, field by field, for a mask and a match made of their fields. -/
theorem uop_and_encodeUop_iff {u : Uop} {wr wr' : Bool} {off off' : BitVec 7} {data data' : Word} :
    u &&& encodeUop wr off data = encodeUop wr' off' data' ↔
      (uopWr u && wr) = wr' ∧ uopOff u &&& off = off' ∧ uopData u &&& data = data' := by
  have hand (m : Uop) : uopWr (u &&& m) = (uopWr u && uopWr m) ∧ uopOff (u &&& m) = uopOff u &&& uopOff m ∧
      uopData (u &&& m) = uopData u &&& uopData m :=
    ⟨BitVec.getLsbD_and, BitVec.extractLsb'_and, BitVec.extractLsb'_and⟩
  simp only [uop_eq_iff, hand, uopWr_encodeUop, uopOff_encodeUop, uopData_encodeUop]

/-! ### Descriptors (R74, R76) -/

/-- The descriptors that are a command: one kind for each row. -/
theorem decodeDesc_eq_ok {d : Desc} {i : Instr} : decodeDesc d = .ok i ↔
    (descKind d = false ∧ descSwap d = false ∧ descReserved d = 0 ∧ descSrc d = 0 ∧
      i = .fill (descColor d) (descCount d)) ∨
    (descKind d = true ∧ descSwap d = false ∧ descReserved d = 0 ∧ descColor d = 0 ∧
      i = .wrpix (descSrc d) (descCount d)) ∨
    (descKind d = true ∧ descSwap d = true ∧ descReserved d = 0 ∧ descColor d = 0 ∧
      i = .wrpixs (descSrc d) (descCount d)) := by
  unfold decodeDesc
  by_cases hreserved : descReserved d = 0#14
  · cases hkind : descKind d <;> cases hswap : descSwap d
    case false.true => simp [hreserved]
    case false.false => by_cases hsrc : descSrc d = 0#32 <;> simp [hreserved, hsrc, @eq_comm _ i]
    case true.false | true.true => by_cases hcolor : descColor d = 0#16 <;> simp [hreserved, hcolor, @eq_comm _ i]
  · simp [hreserved]

/-- Which descriptors are not reserved; `COUNT` is not looked at. -/
theorem exists_decodeDesc_iff {d : Desc} : (∃ i, decodeDesc d = .ok i) ↔ descReserved d = 0 ∧
    ((descKind d = false ∧ descSwap d = false ∧ descSrc d = 0) ∨ (descKind d = true ∧ descColor d = 0)) := by
  simp only [decodeDesc_eq_ok, exists_or, exists_and_left, exists_eq, and_true]
  cases descKind d
  case false => simp [and_left_comm]
  case true => cases descSwap d <;> simp

/-- Mask and match of FILL's row. -/
theorem desc_mask_fill_iff {d : Desc} : d &&& 0xFFFF000000000000FFFFFFFF#96 = 0 ↔
    descKind d = false ∧ descSwap d = false ∧ descReserved d = 0 ∧ descSrc d = 0 := by
  obtain ⟨hkind, hswap, hreserved, hcolor, hcount, hsrc⟩ :
      descKind 0xFFFF000000000000FFFFFFFF#96 = true ∧ descSwap 0xFFFF000000000000FFFFFFFF#96 = true ∧
      descReserved 0xFFFF000000000000FFFFFFFF#96 = BitVec.allOnes 14 ∧ descColor 0xFFFF000000000000FFFFFFFF#96 = 0 ∧
      descCount 0xFFFF000000000000FFFFFFFF#96 = 0 ∧ descSrc 0xFFFF000000000000FFFFFFFF#96 = BitVec.allOnes 32 := by
    decide
  have hmatch : (0 : Desc) = encodeDesc false false 0 0 0 := by decide
  rw [hmatch, desc_and_eq_iff, hkind, hswap, hreserved, hcolor, hcount, hsrc, BitVec.and_allOnes, BitVec.and_allOnes]
  simp [encodeDesc_field_eqs]

/-- Mask and match of the rows of WRPIX and WRPIXS, which differ in `SWAP`. -/
theorem desc_mask_sequence_iff {d : Desc} {swap : Bool} :
    d &&& 0xFFFFFFFF0000000000000000#96 = encodeDesc true swap 0 0 0 ↔
      descKind d = true ∧ descSwap d = swap ∧ descReserved d = 0 ∧ descColor d = 0 := by
  obtain ⟨hkind, hswap, hreserved, hcolor, hcount, hsrc⟩ :
      descKind 0xFFFFFFFF0000000000000000#96 = true ∧ descSwap 0xFFFFFFFF0000000000000000#96 = true ∧
      descReserved 0xFFFFFFFF0000000000000000#96 = BitVec.allOnes 14 ∧
      descColor 0xFFFFFFFF0000000000000000#96 = BitVec.allOnes 16 ∧
      descCount 0xFFFFFFFF0000000000000000#96 = 0 ∧ descSrc 0xFFFFFFFF0000000000000000#96 = 0 := by
    decide
  rw [desc_and_eq_iff, hkind, hswap, hreserved, hcolor, hcount, hsrc, BitVec.and_allOnes, BitVec.and_allOnes]
  simp [encodeDesc_field_eqs]

/-! ### Register accesses (R75, R77) -/

/-- The accesses that are a micro-operation: one kind for each row; a write of START is `START` or the no-operation by
`DATA[0]`. -/
theorem decodeUop_eq_ok {u : Uop} {i : Instr} : decodeUop u = .ok i ↔
    (uopWr u = false ∧ uopOff u = 0x00#7 ∧ uopData u = 0 ∧ i = .rdbusy) ∨
    (uopWr u = true ∧ uopOff u = 0x04#7 ∧ i = .start ((uopData u).getLsbD 0)) ∨
    (uopWr u = true ∧ uopOff u = 0x08#7 ∧ i = .setlen ((uopData u).extractLsb' 0 9)) ∨
    (uopWr u = true ∧ (uopOff u).extractLsb' 0 2 = 0 ∧ (uopOff u).getLsbD 6 = true ∧
      i = .wrslot ((uopOff u).extractLsb' 2 4) (uopData u)) := by
  unfold decodeUop
  by_cases haligned : (uopOff u).extractLsb' 0 2 = 0#2
  case neg =>
    have hoff (o : BitVec 7) (ho : o.extractLsb' 0 2 = 0#2) : uopOff u ≠ o := fun h => haligned (h ▸ ho)
    simp [haligned, hoff 0x00#7 rfl, hoff 0x04#7 rfl, hoff 0x08#7 rfl]
  by_cases hslot : (uopOff u)[6] = true
  case pos =>
    have hoff (o : BitVec 7) (ho : o[6] = false) : uopOff u ≠ o := fun h => by simp [h, ho] at hslot
    cases hwr : uopWr u <;>
      simp [haligned, hslot, hoff 0x00#7 rfl, hoff 0x04#7 rfl, hoff 0x08#7 rfl, @eq_comm _ i]
  by_cases hstatus : uopOff u = 0x00#7
  · cases hwr : uopWr u <;> by_cases hdata : uopData u = 0#32 <;> simp [hstatus, hdata, @eq_comm _ i]
  by_cases hstart : uopOff u = 0x04#7
  · cases hwr : uopWr u <;> simp [hstart, @eq_comm _ i]
  by_cases hlen : uopOff u = 0x08#7
  · cases hwr : uopWr u <;> simp [hlen, @eq_comm _ i]
  · simp [haligned, hslot, hstatus, hstart, hlen]

/-- `U[37:34]` is the slot index `OFF[5:2]` (R75). -/
theorem extractLsb'_index (u : Uop) : u.extractLsb' 34 4 = (uopOff u).extractLsb' 2 4 := by
  apply BitVec.eq_of_getLsbD_eq
  intro k hk
  have hoff : 2 + k < 7 := by omega
  simp [uopOff, hk, hoff, ← Nat.add_assoc]

/-- The mask and the match of WRSLOT's row in the offset: bit 6 set, the two low bits clear. -/
theorem off_mask_slot_iff {off : BitVec 7} :
    off &&& 0x43#7 = 0x40#7 ↔ off.extractLsb' 0 2 = 0 ∧ off.getLsbD 6 = true := by
  revert off; decide

theorem and_one_eq_one_iff {x : Word} : x &&& 1 = 1 ↔ x.getLsbD 0 = true := by
  have hbit : x &&& 1 = (BitVec.ofBool (x.getLsbD 0)).setWidth 32 := BitVec.and_one_eq_setWidth_ofBool_getLsbD
  rw [hbit]
  cases x.getLsbD 0 <;> decide

/-- Which accesses are no reserved encoding, by direction and offset. -/
theorem exists_decodeUop_iff {u : Uop} : (∃ i, decodeUop u = .ok i) ↔
    (uopWr u = false ∧ uopOff u = 0x00#7 ∧ uopData u = 0) ∨
    (uopWr u = true ∧ (uopOff u = 0x04#7 ∨ uopOff u = 0x08#7 ∨
      ((uopOff u).extractLsb' 0 2 = 0 ∧ (uopOff u).getLsbD 6 = true))) := by
  simp only [decodeUop_eq_ok, exists_or, exists_and_left, exists_eq, and_true, and_or_left]

/-- R77's list of offsets, for a write. -/
theorem reserved_write_off_iff {off : BitVec 7} :
    ¬(off = 0x04#7 ∨ off = 0x08#7 ∨ (off.extractLsb' 0 2 = 0 ∧ off.getLsbD 6 = true)) ↔
      off.extractLsb' 0 2 ≠ 0 ∨ (0x0C ≤ off.toNat ∧ off.toNat ≤ 0x3C) ∨ off = 0 := by
  revert off; decide

/-- R77's list of offsets, for a read. -/
theorem reserved_read_off_iff {off : BitVec 7} :
    off ≠ 0x00#7 ↔ off.extractLsb' 0 2 ≠ 0 ∨ (0x0C ≤ off.toNat ∧ off.toNat ≤ 0x3C) ∨
      (off.toNat = 0x04 ∨ off.toNat = 0x08 ∨ 0x40 ≤ off.toNat) := by
  revert off; decide

/-! ### The obligations -/

/-- Settles O1: the fields of an encoded word, read back, are those its row asks for. -/
theorem decodeEncodeRoundTrip : Obligations.DecodeEncodeRoundTrip := by
  intro i
  cases i with
  | fill color count | wrpix src count | wrpixs src count =>
    exact decodeDesc_eq_ok.2 (by simp [encodeDesc_field_eqs])
  | rdbusy => rfl
  | start go =>
    refine decodeUop_eq_ok.2 (.inr (.inl ⟨uopWr_encodeUop .., uopOff_encodeUop .., ?_⟩))
    cases go <;> simp [uopData_encodeUop]
  | setlen v =>
    refine decodeUop_eq_ok.2 (.inr (.inr (.inl ⟨uopWr_encodeUop .., uopOff_encodeUop .., ?_⟩)))
    rw [uopData_encodeUop, BitVec.extractLsb'_setWidth_of_le (by decide), BitVec.extractLsb'_eq_self]
  | wrslot i w => exact (slotOffsets i w).2
  | waitidle => rfl

/-- Settles O2: the descriptor is made of the fields its command was read from. -/
theorem encodeOfDecodedDescriptor : Obligations.EncodeOfDecodedDescriptor := fun _ _ => encode_of_decodeDesc

/-- Settles O3: mask and match of a row say of the fields what the decoder asks of them. -/
theorem commandRowsByMask : Obligations.CommandRowsByMask := by
  intro d
  have hwrpix : (0x800000000000000000000000#96 : Desc) = encodeDesc true false 0 0 0 := by decide
  have hwrpixs : (0xC00000000000000000000000#96 : Desc) = encodeDesc true true 0 0 0 := by decide
  rw [desc_mask_fill_iff, hwrpix, hwrpixs, desc_mask_sequence_iff, desc_mask_sequence_iff]
  simp only [decodeDesc_eq_ok]
  refine ⟨by simp, by simp, by simp, fun i hi => ?_⟩
  rcases hi with ⟨-, -, -, -, h⟩ | ⟨-, -, -, -, h⟩ | ⟨-, -, -, -, h⟩ <;> simp [h]

/-- Settles O4: no row's fields are met exactly in the four cases; at `pc = IDLE` the HOST's ISSUE names the reason. -/
theorem reservedDescriptorsRefused : Obligations.ReservedDescriptorsRefused := by
  refine ⟨fun d => ?_, fun d e s hd hp => ?_⟩
  · rw [← not_exists, exists_decodeDesc_iff]
    cases descKind d
    case false => cases descSwap d <;> simp [imp_iff_not_or]
    case true => simp [imp_iff_not_or]
  · simp [hostOp, decodePort, hd, rejectWord, hp]

/-- Settles O5: mask and match of a row say of the fields what the decoder asks of them. -/
theorem microOperationRowsByMask : Obligations.MicroOperationRowsByMask := by
  refine ⟨fun u => ?_, rfl⟩
  have hlen : u.extractLsb' 0 9 = (uopData u).extractLsb' 0 9 :=
    (BitVec.extractLsb'_extractLsb'_of_le (show 0 + 9 ≤ 32 by decide)).symm
  have hdata : u.extractLsb' 0 32 = uopData u := rfl
  simp only [decodeUop_eq_ok, hlen, extractLsb'_index, hdata]
  refine ⟨?_, ?_, ?_, ?_⟩
  · change _ ↔ u &&& encodeUop true (BitVec.allOnes 7) (BitVec.allOnes 32) = encodeUop false 0x00#7 0
    rw [uop_and_encodeUop_iff, BitVec.and_allOnes, BitVec.and_allOnes]
    simp
  · change _ ↔ u &&& encodeUop true (BitVec.allOnes 7) 1 = encodeUop true 0x04#7 1
    rw [uop_and_encodeUop_iff, BitVec.and_allOnes, and_one_eq_one_iff]
    simp
  · change _ ↔ u &&& encodeUop true (BitVec.allOnes 7) 0 = encodeUop true 0x08#7 0
    rw [uop_and_encodeUop_iff, BitVec.and_allOnes]
    simp
  · change _ ↔ u &&& encodeUop true 0x43#7 0 = encodeUop true 0x40#7 0
    rw [uop_and_encodeUop_iff, off_mask_slot_iff]
    simp

/-- Settles O6: no row's fields are met exactly where R77 lists the offset, direction or data; the HOST's access of such
a word is refused whatever the state. -/
theorem reservedAccessesRefused : Obligations.ReservedAccessesRefused := by
  refine ⟨fun u => ?_, fun u e s hu => ?_, fun u hwr hoff hdata => ?_⟩
  · rw [← not_exists, exists_decodeUop_iff]
    cases uopWr u
    case false =>
      have hoff := reserved_read_off_iff (off := uopOff u)
      by_cases hdata : uopData u = 0#32
      · simpa [hdata] using hoff
      · simp [hdata]
    case true => simpa using reserved_write_off_iff (off := uopOff u)
  · simp [hostOp, decodePort, hu, rejectWord]
  · exact decodeUop_eq_ok.2 (.inr (.inl ⟨hwr, hoff, hdata ▸ rfl⟩))

/-- Settles O7: each word is evaluated. -/
theorem decoderReadsSpecWords : Obligations.DecoderReadsSpecWords := by
  unfold Obligations.DecoderReadsSpecWords
  decide

/-- Settles O12: the write is past the check of the bus mode and asks for no burst. -/
theorem startWithBitZeroClearDoesNothing : Obligations.StartWithBitZeroClearDoesNothing :=
  fun _ => onSerial_serial _

end Sys2Proof.Machine
end

section
/-! PROOFS. The micro-operations of the HOST and the completion of a burst (spec/40_register_burst_controller.md R91 to
R95, R97), and the wait SEQ holds at meanwhile. -/

namespace Sys2Proof.Machine

/-! ### The HOST with no command active -/

theorem hostOwned_of_idle {s : State} (o : Result) (h : s.phase = .idle) : hostOwned s o = o := if_pos h

/-- At `pc = IDLE` the HOST's SETLEN, WRSLOT and START are those of SEQ. -/
theorem onSerial_hostOwned {s : State} (o : Result) (hs : s.params.busMode = .serial) (hp : s.phase = .idle) :
    onSerial s (hostOwned s o) = o := by
  rw [onSerial_serial _ hs, hostOwned_of_idle _ hp]

/-- Settles O9: SETLEN is past the checks of the bus mode and of `pc`; the decoder takes `DATA[8:0]`. -/
theorem setlenWritesLen : Obligations.SetlenWritesLen :=
  ⟨fun v s hs hp => onSerial_hostOwned (opSetLen v s) hs hp,
    fun _ hwr hoff => decodeUop_eq_ok.2 (.inr (.inr (.inl ⟨hwr, hoff, rfl⟩)))⟩

/-- Settles O10: WRSLOT is past the checks of the bus mode and of `pc`; then read after write of a slot. -/
theorem wrslotWritesSlot : Obligations.WrslotWritesSlot := by
  intro i w s hs hp
  have hexec : exec (.wrslot i w) s = opWrSlot i w s := onSerial_hostOwned _ hs hp
  refine ⟨fun hb => hexec.trans (if_pos hb), fun hb => ?_⟩
  exact ⟨s.writeSlot i w, hexec.trans (opWrSlot_eq_next.2 ⟨hb, rfl⟩), rfl,
    fun j hj => ⟨writeSlot_slots_get s i w j hj, writeSlot_written_get s i w j hj⟩⟩

/-! ### START -/

theorem opStart_of_busy {s : State} (h : s.busy = true) : opStart s = .fault .startWhileBusy := if_pos h

theorem opStart_of_not_startable {s : State} (hb : s.busy = false) (h : ¬ startable s = true) :
    opStart s = .fault .startUnwritten := by
  rw [opStart, if_neg (by simp [hb]), if_neg h]

/-- What START needs, slot by slot (R90, R93). -/
theorem startable_iff_slotWritten {s : State} :
    startable s = true ↔ s.lenWritten = true ∧ ∀ w, w ≤ s.len.toNat / 32 → s.slotWritten[w]? = some true := by
  simp only [startable_iff, slotsHeld_iff, Nat.lt_succ_iff]

/-- Settles O11: START is past the checks of the bus mode and of `pc`; then its own checks, in their order. -/
theorem startBeginsBurst : Obligations.StartBeginsBurst := by
  intro s hs hp
  have hexec : exec (.start true) s = opStart s := onSerial_hostOwned _ hs hp
  rw [hexec, ← startable_iff_slotWritten]
  exact ⟨opStart_of_busy, fun hb hst => opStart_eq_next.2 ⟨hb, hst, rfl⟩, opStart_of_not_startable⟩

/-! ### RDBUSY and WAITIDLE -/

theorem statusWord_eq (s : State) : statusWord s = if s.busy then 1 else 0 := by
  unfold statusWord
  cases s.busy <;> rfl

/-- Settles O13: RDBUSY is past the check of the bus mode and returns the status word. -/
theorem rdbusyReturnsBusy : Obligations.RdbusyReturnsBusy := by
  intro s hs
  rw [← statusWord_eq]
  exact onSerial_serial _ hs

/-- Settles O14: WAITIDLE is past the check of the bus mode; the HOST holds at it by `BUSY`. -/
theorem waitidlePassesOnlyWhileIdle : Obligations.WaitidlePassesOnlyWhileIdle := by
  refine ⟨fun s hs hb => ?_, fun s hs hb => ?_, fun s rest hh => by simp only [hostEnabled, hh, hostHolds]⟩
  · exact (onSerial_serial _ hs).trans (if_neg (by simp [hb]))
  · exact (onSerial_serial _ hs).trans (if_pos hb)

/-! ### Completion of the burst -/

theorem opBurst_of_busy {s : State} (h : s.busy = true) : opBurst s = .next s.endBurst := if_pos h

/-- Settles O17: the step of BURST is the completion. -/
theorem burstCompletes : Obligations.BurstCompletes := fun _ => ⟨rfl, opBurst_of_busy⟩

/-! ### SEQ at a WAITIDLE row -/

theorem waitRow_of_not_busy (p : Phase) {s : State} (h : s.busy = false) : waitRow p s = .next (s.setPhase p) :=
  if_neg (by simp [h])

/-- While `BUSY = 0` a WAITIDLE row goes on to another phase, and changes nothing else (R95). -/
theorem seqStep_passes_wait {s : State} (hw : s.phase.isWait = true) (hb : s.busy = false) :
    ∃ p, p ≠ s.phase ∧ seqStep s = .next (s.setPhase p) := by
  unfold seqStep
  cases hp : s.phase
  case fPwait =>
    exact ⟨if s.idx.toNat < 16 then .fPslot else .fLwait, by split <;> decide, waitRow_of_not_busy _ hb⟩
  case fRwait | fLwait | wFwait | wTwait | sAwait | sBwait | sCwait =>
    exact ⟨_, by decide, waitRow_of_not_busy _ hb⟩
  all_goals simp [hp, Phase.isWait] at hw

theorem phase_ne_idle_of_isWait {s : State} (h : s.phase.isWait = true) : s.phase ≠ .idle :=
  fun hp => by simp [hp, Phase.isWait] at h

theorem not_enabled_host {s : State} (h : s.host = []) : enabled s .host = false := by
  simp [enabled, hostEnabled, h]

/-- With SEQ held at a WAITIDLE row and no action of the HOST, BURST is the only agent that has a step. -/
theorem enabledAgents_eq_burst {s : State} (hw : s.phase.isWait = true) (hb : s.busy = true) (hh : s.host = []) :
    enabledAgents s = [.burst] := by
  have hseq : enabled s .seq = false := by simp [enabled, seqEnabled, hw, hb]
  have hburst : enabled s .burst = true := hb
  simp [enabledAgents, not_enabled_host hh, hseq, hburst]

/-- With a command active, no burst in flight and no action of the HOST, SEQ is the only agent that has a step. -/
theorem enabledAgents_eq_seq {s : State} (hp : s.phase ≠ .idle) (hb : s.busy = false) (hh : s.host = []) :
    enabledAgents s = [.seq] := by
  have hseq : enabled s .seq = true := by simp [enabled, seqEnabled, State.seqActive, hp, hb]
  have hburst : enabled s .burst = false := hb
  simp [enabledAgents, not_enabled_host hh, hseq, hburst]

theorem step_of_enabledAgents_singleton {s : State} {a : Agent} (hs : s.params.busMode = .serial)
    (h : enabledAgents s = [a]) : step s = agentStep a s :=
  step_of_chooseAgent hs (chooseAgent_of_enabledAgents_singleton h)

/-- Settles O44: BURST is the only agent with a step, and after it SEQ is. -/
theorem heldWaitPassesAfterBurst : Obligations.HeldWaitPassesAfterBurst := by
  intro s hs hw hb hh
  have hburst : step s = .next s.endBurst :=
    (step_of_enabledAgents_singleton hs (enabledAgents_eq_burst hw hb hh)).trans (opBurst_of_busy hb)
  have hpasses : step s.endBurst = seqStep s.endBurst :=
    step_of_enabledAgents_singleton (s := s.endBurst) hs (enabledAgents_eq_seq (phase_ne_idle_of_isWait hw) rfl hh)
  obtain ⟨p, hp, hseq⟩ := seqStep_passes_wait (s := s.endBurst) hw rfl
  exact ⟨s.endBurst, s.endBurst.setPhase p, hburst, rfl, hpasses.trans hseq, hp, rfl⟩

end Sys2Proof.Machine
end

section
/-! PROOFS. The order in which a burst's bits go on the bus (spec/40_register_burst_controller.md R96): as bits, as
bytes and as pixels. -/

namespace Sys2Proof.Machine

/-- A list over `c * n` numbers, in `n` groups of `c`. -/
theorem map_range_mul {α : Type} (g : Nat → α) (c n : Nat) :
    (List.range (c * n)).map g = (List.range n).flatMap fun m => (List.range c).map fun i => g (c * m + i) := by
  induction n with
  | zero => rfl
  | succ n ih =>
    rw [Nat.mul_succ, List.range_add, List.map_append, ih, List.range_succ, List.flatMap_append]
    simp [Function.comp_def]

/-! ### Bits -/

theorem payload_get {len : Len} {x : Vector Word 16} {n : Nat} (h : n ≤ len.toNat) :
    (payload len x)[n]? = some (wireBit x n) := by
  simp [payload, Nat.lt_succ_of_le h]

theorem wireBit_eq {x : Vector Word 16} {n : Nat} (h : n / 32 < 16) :
    wireBit x n = x[n / 32].getLsbD (8 * (n % 32 / 8) + 7 - n % 32 % 8) := by
  simp [wireBit, h]

/-! ### Bytes -/

/-- The byte of the slots that goes on the bus `m` bytes after the first. -/
def wireByte (x : Vector Word 16) (m : Nat) : Byte := (x[m / 4]?.getD 0).extractLsb' (8 * (m % 4)) 8

/-- Bit `i` of a byte's eight on the bus is bit `7 - i` of the byte. -/
theorem wireBit_of_byte (x : Vector Word 16) (m : Nat) {i : Nat} (hi : i < 8) :
    wireBit x (8 * m + i) = (wireByte x m).getLsbD (7 - i) := by
  have hslot : (8 * m + i) / 32 = m / 4 := by omega
  have hbit : 8 * ((8 * m + i) % 32 / 8) + 7 - (8 * m + i) % 32 % 8 = 8 * (m % 4) + (7 - i) := by omega
  have hin : 7 - i < 8 := by omega
  rw [wireBit, hslot, hbit, wireByte, BitVec.getLsbD_extractLsb', decide_eq_true hin, Bool.true_and]

theorem byteBits_wireByte (x : Vector Word 16) (m : Nat) :
    (List.range 8).map (fun i => wireBit x (8 * m + i)) = byteBits (wireByte x m) :=
  List.map_congr_left fun _ hi => wireBit_of_byte x m (List.mem_range.1 hi)

/-- A burst of whole bytes is the bytes of the slots, in their order. -/
theorem payload_eq_bytes {len : Len} (x : Vector Word 16) (h : (len.toNat + 1) % 8 = 0) :
    payload len x = bytesBits ((List.range ((len.toNat + 1) / 8)).map (wireByte x)) := by
  have hlen : len.toNat + 1 = 8 * ((len.toNat + 1) / 8) := by omega
  rw [payload, hlen, map_range_mul, ← hlen, bytesBits, List.flatMap_map]
  simp only [byteBits_wireByte]

/-! ### Pixels -/

/-- The pixel that goes on the bus `k` pixels after the first. -/
def wirePixel (x : Vector Word 16) (k : Nat) : Pixel :=
  if k % 2 = 0 then lane0 (x[k / 2]?.getD 0) else lane1 (x[k / 2]?.getD 0)

/-- A field of a field. -/
theorem extractLsb'_extractLsb'_add {w lo len i n : Nat} (x : BitVec w) (h : i + n ≤ len) :
    (x.extractLsb' lo len).extractLsb' i n = x.extractLsb' (lo + i) n := by
  apply BitVec.eq_of_getLsbD_eq
  intro k hk
  have hin : i + k < len := by omega
  simp [hk, hin, Nat.add_assoc]

/-- A lane is the half of the slot at bit 0 or at bit 16. -/
theorem wirePixel_eq (x : Vector Word 16) (k : Nat) :
    wirePixel x k = (x[k / 2]?.getD 0).extractLsb' (16 * (k % 2)) 16 := by
  rcases Nat.mod_two_eq_zero_or_one k with hk | hk <;> simp [wirePixel, hk, lane0, lane1]

/-- Byte `i` of a pixel's two on the bus is byte `i` of the pixel. -/
theorem wireByte_of_pixel (x : Vector Word 16) (k : Nat) {i : Nat} (hi : i < 2) :
    wireByte x (2 * k + i) = (wirePixel x k).extractLsb' (8 * i) 8 := by
  have hslot : (2 * k + i) / 4 = k / 2 := by omega
  have hbyte : 8 * ((2 * k + i) % 4) = 16 * (k % 2) + 8 * i := by omega
  rw [wireByte, hslot, hbyte, wirePixel_eq, extractLsb'_extractLsb'_add _ (by omega)]

theorem wireByte_pair (x : Vector Word 16) (k : Nat) :
    (List.range 2).map (fun i => wireByte x (2 * k + i)) =
      [(wirePixel x k).extractLsb' 0 8, (wirePixel x k).extractLsb' 8 8] :=
  List.map_congr_left fun _ hi => wireByte_of_pixel x k (List.mem_range.1 hi)

/-- A burst of whole pixels is the pixels of the slots, in their order, the low byte of each first. -/
theorem payload_eq_pixels {len : Len} (x : Vector Word 16) (h : (len.toNat + 1) % 16 = 0) :
    payload len x = bytesBits ((List.range ((len.toNat + 1) / 16)).flatMap fun k =>
      [(wirePixel x k).extractLsb' 0 8, (wirePixel x k).extractLsb' 8 8]) := by
  have hbytes : (len.toNat + 1) / 8 = 2 * ((len.toNat + 1) / 16) := by omega
  rw [payload_eq_bytes x (by omega), hbytes, map_range_mul]
  simp only [wireByte_pair]

/-- Settles O16: the bits by the definition of PAYLOAD, the bytes as eights of bits, the pixels as pairs of bytes. -/
theorem payloadBitOrder : Obligations.PayloadBitOrder := by
  intro len x
  refine ⟨payload_length len x, fun n w j hn hw hj h => ?_, payload_eq_bytes x, payload_eq_pixels x⟩
  subst hw hj
  rw [payload_get hn, wireBit_eq h]

end Sys2Proof.Machine
end

section
/-! PROOFS. The contract of R90 at the phases of SEQ (R131, R150, R167): every row of the phase tables that starts where
it holds ends where it holds. -/

namespace Sys2Proof.Machine

/-! ### What the contract at a phase speaks of -/

theorem phaseInv_of_phase {s : State} {p : Phase} (hp : s.phase = p) (h : phaseInvAt s p) : phaseInvAt s s.phase :=
  hp ▸ h

/-- The contract at a phase does not speak of `pc`. -/
theorem phaseInvAt_setPhase {s : State} {p q : Phase} : phaseInvAt (s.setPhase p) q ↔ phaseInvAt s q := Iff.rfl

/-! ### WAITIDLE and SETLEN rows -/

/-- A WAITIDLE row: SEQ holds, or goes on knowing that `BUSY = 0`. -/
theorem phaseInv_waitRow {p : Phase} {s t : State} (hinv : phaseInvAt s s.phase) (h : waitRow p s = .next t)
    (hpass : s.busy = false → phaseInvAt s p) : phaseInvAt t t.phase := by
  obtain rfl := waitRow_eq_next.1 h
  split
  · exact hinv
  · rename_i hb
    exact hpass (by simpa using hb)

/-- After SETLEN at `IDX = 0` no slot has to be loaded yet. -/
theorem loading_writeLen {s : State} (v : Len) {limit : Nat} (hb : s.busy = false) (hidx : s.idx = 0)
    (hlimit : 0 < limit) : loading (s.writeLen v) v limit := by
  have hzero : (s.writeLen v).idx.toNat = 0 := by simp [hidx]
  exact ⟨hb, rfl, rfl, hzero.symm ▸ hlimit, hzero.symm ▸ slotsHeld_zero _⟩

theorem wordsFor_pos {s : State} {hi : Nat} (h : remIn s 1 hi) : 0 < wordsFor s.rem.toNat := by
  obtain ⟨hlo, -⟩ := h
  unfold wordsFor
  omega

theorem wordsFor_le {s : State} {lo hi : Nat} (h : remIn s lo hi) (hhi : hi ≤ 31) : wordsFor s.rem.toNat ≤ 16 := by
  obtain ⟨-, hrem⟩ := h
  unfold wordsFor
  omega

/-! ### Slot rows -/

theorem eq_afterSlot_of_slotRow {w : Word} {limit : Nat} {p q : Phase} {s t : State}
    (h : slotRow w limit p q s = .next t) : s.idx.toNat < 16 ∧ t = afterSlot s limit p q w := by
  obtain ⟨hi, -, ht⟩ := slotRow_eq_next.1 h
  exact ⟨hi, ht⟩

theorem afterSlot_idx {s : State} (hi : s.idx.toNat < 16) (limit : Nat) (p q : Phase) (w : Word) :
    (afterSlot s limit p q w).idx.toNat = s.idx.toNat + 1 := by
  simp only [afterSlot, State.setPhase_idx, State.setIdx_idx, BitVec.toNat_add, BitVec.reduceToNat]
  omega

theorem slotsHeld_afterSlot {s : State} (hi : s.idx.toNat < 16) (h : slotsHeld s s.idx.toNat = true) (limit : Nat)
    (p q : Phase) (w : Word) : slotsHeld (afterSlot s limit p q w) (s.idx.toNat + 1) = true := by
  rw [← toNat_setWidth_idx hi] at h ⊢
  exact slotsHeld_writeSlot_succ w h

/-- A slot row stays while slots below the limit are left, and else goes on with `IDX` at the limit. -/
theorem afterSlot_phase {s : State} {limit : Nat} (hi : s.idx.toNat < limit) (hlimit : limit ≤ 16) (p q : Phase)
    (w : Word) :
    ((afterSlot s limit p q w).phase = p ∧ s.idx.toNat + 1 < limit) ∨
      ((afterSlot s limit p q w).phase = q ∧ s.idx.toNat + 1 = limit) := by
  have hidx : (s.idx + 1).toNat = s.idx.toNat + 1 := afterSlot_idx (by omega) limit p q w
  simp only [afterSlot, State.setPhase_phase, hidx]
  by_cases hlt : s.idx.toNat + 1 < limit
  · exact .inl ⟨if_pos hlt, hlt⟩
  · exact .inr ⟨if_neg hlt, by omega⟩

/-- A slot row of a burst set-up: the set-up goes on, or all slots of the burst are loaded. -/
theorem loading_afterSlot {s : State} {len : Len} {limit : Nat} (h : loading s len limit) (hlimit : limit ≤ 16)
    (p q : Phase) (w : Word) :
    ((afterSlot s limit p q w).phase = p ∧ loading (afterSlot s limit p q w) len limit) ∨
      ((afterSlot s limit p q w).phase = q ∧ (afterSlot s limit p q w).idx.toNat = limit ∧
        loaded (afterSlot s limit p q w) len limit) := by
  obtain ⟨hb, hwritten, hlen, hi, hheld⟩ := h
  have hi16 : s.idx.toNat < 16 := by omega
  have hidx := afterSlot_idx hi16 limit p q w
  have hheld' := slotsHeld_afterSlot hi16 hheld limit p q w
  obtain ⟨hp, hlt⟩ | ⟨hp, rfl⟩ := afterSlot_phase hi hlimit p q w
  · exact .inl ⟨hp, hb, hwritten, hlen, hidx ▸ hlt, hidx ▸ hheld'⟩
  · exact .inr ⟨hp, hidx, hb, hwritten, hlen, hheld'⟩

theorem loadRow_idx {w : Option Word} {size : Word} {limit : Nat} {p q : Phase} {s t : State}
    (h : loadRow w size limit p q s = .next t) : t.idx.toNat = s.idx.toNat + 1 := by
  obtain ⟨v, -, hi, -, rfl⟩ := loadRow_eq_next.1 h
  exact afterSlot_idx hi limit p q v

/-- A load row of a burst set-up is a slot row of it, and keeps `DESC` and `REM`. -/
theorem loading_loadRow {w : Option Word} {size : Word} {s t : State} {len : Len} {limit : Nat} {p q : Phase}
    (h : loadRow w size limit p q s = .next t) (hl : loading s len limit) (hlimit : limit ≤ 16) :
    t.desc = s.desc ∧ t.rem = s.rem ∧
      ((t.phase = p ∧ loading t len limit) ∨ (t.phase = q ∧ t.idx.toNat = limit ∧ loaded t len limit)) := by
  obtain ⟨v, -, -, -, rfl⟩ := loadRow_eq_next.1 h
  exact ⟨rfl, rfl, loading_afterSlot hl hlimit p q v⟩

/-! ### Where `PTR` stands -/

theorem sequenceDesc_congr {s t : State} {swap : Bool} (hdesc : t.desc = s.desc) (h : sequenceDesc s swap) :
    sequenceDesc t swap := by
  rwa [sequenceDesc, hdesc]

theorem pointsAfter_entry {t : State} (hrem : t.rem = descCount t.desc) (hptr : t.ptr = descSrc t.desc) :
    pointsAfter t 0 := by
  simp [pointsAfter, hrem, hptr]

/-- One more word of the burst is loaded. -/
theorem pointsAfter_succ {s t : State} {i : Nat} (h : pointsAfter s i) (hdesc : t.desc = s.desc)
    (hrem : t.rem = s.rem) (hptr : t.ptr = s.ptr + 4) : pointsAfter t (i + 1) := by
  obtain ⟨hle, hbursts, hat⟩ := h
  refine ⟨by rwa [hdesc, hrem], by rwa [hdesc, hrem], ?_⟩
  rw [hptr, hat, hdesc, hrem, BitVec.ofNat_add, BitVec.mul_add, BitVec.add_assoc]
  rfl

/-- All `k` words of a burst of 16 or 32 pixels are loaded, and `REM` counts its pixels as sent. -/
theorem pointsAfter_start {s t : State} {k : Nat} (h : pointsAfter s k) (hk : 8 ∣ k) (hle : 2 * k ≤ s.rem.toNat)
    (hdesc : t.desc = s.desc) (hptr : t.ptr = s.ptr) (hrem : t.rem = s.rem - BitVec.ofNat 32 (2 * k)) :
    pointsAfter t 0 := by
  obtain ⟨hcount, hbursts, hat⟩ := h
  have hremNat : t.rem.toNat = s.rem.toNat - 2 * k := by
    rw [hrem, BitVec.toNat_sub, BitVec.toNat_ofNat]
    omega
  refine ⟨by rw [hdesc, hremNat]; omega, by rw [hdesc, hremNat]; omega, ?_⟩
  have hpixels : BitVec.ofNat 32 (2 * k) = 2 * BitVec.ofNat 32 k := BitVec.ofNat_mul ..
  have hnone : (4 : Word) * BitVec.ofNat 32 0 = 0 := rfl
  rw [hptr, hat, hdesc, hrem, hpixels, hnone]
  ring

/-- A load row of a whole word moves `PTR` and `IDX` on together. -/
theorem pointsAfter_loadRow {w : Option Word} {limit : Nat} {p q : Phase} {s t : State}
    (h : loadRow w 4 limit p q s = .next t) (hptr : pointsAfter s s.idx.toNat) : pointsAfter t t.idx.toNat := by
  rw [loadRow_idx h]
  obtain ⟨v, -, -, -, rfl⟩ := loadRow_eq_next.1 h
  exact pointsAfter_succ hptr rfl rfl rfl

/-! ### The counts -/

theorem splitRem_toNat (n : Word) : (splitRem n).toNat = n.toNat % 32 := by
  simp only [splitRem, BitVec.toNat_setWidth, BitVec.extractLsb'_toNat, Nat.shiftRight_zero]
  omega

theorem splitFull_toNat (n : Word) : (splitFull n).toNat = n.toNat - n.toNat % 32 := by
  have hrem := splitRem_toNat n
  rw [splitFull, BitVec.toNat_sub, hrem]
  omega

/-- A window less keeps whole windows. -/
theorem dvd_toNat_sub_window {n : Word} (h : 32 ∣ n.toNat) : 32 ∣ (n - 32).toNat := by
  simp only [BitVec.toNat_sub, BitVec.reduceToNat]
  omega

theorem one_le_toNat {n : Word} (h : n ≠ 0) : 1 ≤ n.toNat :=
  Nat.one_le_iff_ne_zero.2 fun hzero => h (BitVec.eq_of_toNat_eq hzero)

/-- Where WRPIX goes on, the contract holds (R150). -/
theorem phaseInv_streamSelect {s : State} (hdesc : sequenceDesc s false) (hptr : pointsAfter s 0) :
    phaseInvAt s (streamSelect s.rem) := by
  unfold streamSelect
  split_ifs with hfull hzero
  · exact ⟨hdesc, hfull, hptr⟩
  · trivial
  · exact ⟨hdesc, ⟨one_le_toNat hzero, by omega⟩, hptr⟩

/-- Where WRPIXS goes on, the contract holds (R167). -/
theorem phaseInv_tierSelect {s : State} (hdesc : sequenceDesc s true) (hptr : pointsAfter s 0) :
    phaseInvAt s (tierSelect s.rem) := by
  unfold tierSelect
  split_ifs with hfull hhalf hzero
  · exact ⟨hdesc, hfull, hptr⟩
  · exact ⟨hdesc, ⟨hhalf, by omega⟩, hptr⟩
  · trivial
  · exact ⟨hdesc, ⟨one_le_toNat hzero, by omega⟩, hptr⟩

/-! ### Rows of one shape only -/

/-- FILL starts with its remainder, or with the full windows where it has none (R131). -/
theorem phaseInv_fillEntry {s t : State} (h : fillEntry s = .next t) : phaseInvAt t t.phase := by
  obtain rfl := Host.Outcome.next.inj h
  have hrem := splitRem_toNat (descCount s.desc)
  have hfull := splitFull_toNat (descCount s.desc)
  have hwindows : 32 ∣ (splitFull (descCount s.desc)).toNat := by omega
  rw [State.setPhase_phase, phaseInvAt_setPhase]
  split_ifs with hzero hr
  · trivial
  · exact ⟨⟨one_le_toNat hr, hrem.trans_le (by omega)⟩, rfl, hwindows⟩
  · have hcount := one_le_toNat hzero
    have hremZero : splitRem (descCount s.desc) = 0 := not_not.1 hr
    have hne : splitFull (descCount s.desc) ≠ 0 := fun h => by
      rw [hremZero] at hrem
      rw [h] at hfull
      omega
    exact ⟨by simp [remIn, hremZero], hwindows, hne, by simp [hremZero, wordsFor], slotsHeld_zero _⟩

/-- `F_RSLOT` loads the remainder's burst. -/
theorem phaseInv_fillRslot {s t : State} (hinv : phaseInvAt s .fRslot) (h : fillRslot s = .next t) :
    phaseInvAt t t.phase := by
  obtain ⟨hrem, hfull, hl⟩ := hinv
  obtain ⟨-, rfl⟩ := eq_afterSlot_of_slotRow h
  obtain ⟨hp, hl⟩ | ⟨hp, hidx, hl⟩ := loading_afterSlot hl (wordsFor_le hrem (by omega)) .fRslot .fRstart s.fw
  · exact phaseInv_of_phase hp ⟨hrem, hfull, hl⟩
  · exact phaseInv_of_phase hp ⟨hrem, hfull, hidx, hl⟩

/-- `F_PSLOT` loads the slots the remainder's burst has left. -/
theorem phaseInv_fillPslot {s t : State} (hinv : phaseInvAt s .fPslot) (h : fillPslot s = .next t) :
    phaseInvAt t t.phase := by
  obtain ⟨hfull, hne, hb, hi, hslots⟩ := hinv
  obtain ⟨-, rfl⟩ := eq_afterSlot_of_slotRow h
  have hidx := afterSlot_idx hi 16 .fPslot .fLwait s.fw
  have hslots' := slotsHeld_afterSlot hi hslots 16 .fPslot .fLwait s.fw
  obtain ⟨hp, hlt⟩ | ⟨hp, hi⟩ := afterSlot_phase hi le_rfl .fPslot .fLwait s.fw
  · exact phaseInv_of_phase hp ⟨hfull, hne, hb, hidx ▸ hlt, hidx ▸ hslots'⟩
  · exact phaseInv_of_phase hp ⟨hfull, hne, hi ▸ hslots'⟩

/-- `F_RSTART` leaves the remainder's slots written, for the full windows. -/
theorem phaseInv_fillRstart {s t : State} (hinv : phaseInvAt s .fRstart) (h : fillRstart s = .next t) :
    phaseInvAt t t.phase := by
  obtain ⟨hrem, hfull, hidx, -, -, -, hslots⟩ := hinv
  obtain ⟨-, -, rfl⟩ := startRow_eq_next.1 h
  rw [State.setPhase_phase, phaseInvAt_setPhase]
  split_ifs with hzero
  · trivial
  · exact ⟨⟨by omega, hrem.2⟩, hfull, hzero, hidx, hidx ▸ hslots⟩

/-- `F_LSTART` takes one of the full windows off `FULL`. -/
theorem phaseInv_fillLstart {s t : State} (hinv : phaseInvAt s .fLstart) (h : fillLstart s = .next t) :
    phaseInvAt t t.phase := by
  obtain ⟨hfull, -, -, -, -, hslots⟩ := hinv
  obtain ⟨-, -, rfl⟩ := startRow_eq_next.1 h
  rw [State.setPhase_phase, phaseInvAt_setPhase]
  split_ifs with hne
  · exact ⟨dvd_toNat_sub_window hfull, hne, hslots⟩
  · trivial

/-- `S_BSTART` leaves at most 15 pixels for the tail. -/
theorem phaseInv_swapBstart {s t : State} (hinv : phaseInvAt s .sBstart) (h : swapBstart s = .next t) :
    phaseInvAt t t.phase := by
  obtain ⟨hdesc, ⟨hlo, hhi⟩, hptr, -⟩ := hinv
  obtain ⟨-, -, rfl⟩ := startRow_eq_next.1 h
  rw [State.setPhase_phase, phaseInvAt_setPhase]
  split_ifs with hne
  · have hrem : (s.rem - 16).toNat = s.rem.toNat - 16 := BitVec.toNat_sub_of_le (BitVec.le_def.2 hlo)
    exact ⟨hdesc, ⟨one_le_toNat hne, hrem.trans_le (by omega)⟩,
      pointsAfter_start hptr (by decide) hlo rfl rfl rfl⟩
  · trivial

/-- `S_CSLOT`: the half-word of an odd count's last pixel fills the last slot; after any other word `PTR` stands after
the words loaded (R160, R167). -/
theorem phaseInv_swapCslot {s t : State} (hinv : phaseInvAt s .sCslot) (h : swapCslot s = .next t) :
    phaseInvAt t t.phase := by
  obtain ⟨hdesc, hrem, hptr, hl⟩ := hinv
  have hlimit := wordsFor_le hrem (by omega)
  unfold swapCslot at h
  split at h
  case isTrue hlast =>
    obtain ⟨hlast, -⟩ := lastOdd_iff.1 hlast
    have hidx := loadRow_idx h
    obtain ⟨hd, hr, ⟨-, -, -, -, hlt, -⟩ | ⟨hp, -, hl⟩⟩ := loading_loadRow h hl hlimit
    · omega
    · exact phaseInv_of_phase hp ⟨sequenceDesc_congr hd hdesc, by rwa [remIn, hr], by rwa [hr]⟩
  case isFalse =>
    have hptr := pointsAfter_loadRow h hptr
    obtain ⟨hd, hr, ⟨hp, hl⟩ | ⟨hp, -, hl⟩⟩ := loading_loadRow h hl hlimit
    · exact phaseInv_of_phase hp ⟨sequenceDesc_congr hd hdesc, by rwa [remIn, hr], hptr, by rwa [hr]⟩
    · exact phaseInv_of_phase hp ⟨sequenceDesc_congr hd hdesc, by rwa [remIn, hr], by rwa [hr]⟩

/-! ### Every row -/

/-- The contract holds again after every step of SEQ: the one place where the phase tables are taken apart for it. -/
theorem phaseInv_seqStep {s t : State} (hinv : phaseInvAt s s.phase) (h : seqStep s = .next t) :
    phaseInvAt t t.phase := by
  have hheld := hinv
  unfold seqStep at h
  cases hp : s.phase <;> simp only [hp] at hinv h
  case idle => cases h; exact hheld
  case fEntry => exact phaseInv_fillEntry h
  case wEntry =>
    obtain rfl := Host.Outcome.next.inj h
    exact phaseInv_streamSelect hinv (pointsAfter_entry rfl rfl)
  case sEntry =>
    obtain rfl := Host.Outcome.next.inj h
    exact phaseInv_tierSelect hinv (pointsAfter_entry rfl rfl)
  case fRwait =>
    obtain ⟨hrem, hidx, hfull⟩ := hinv
    exact phaseInv_waitRow hheld h fun hb => ⟨hrem, hidx, hfull, hb⟩
  case fLwait =>
    obtain ⟨hfull, hne, hslots⟩ := hinv
    exact phaseInv_waitRow hheld h fun hb => ⟨hfull, hne, hslots, hb⟩
  case wFwait | wTwait | sAwait | sBwait | sCwait =>
    obtain ⟨hdesc, hrem, hptr⟩ := hinv
    exact phaseInv_waitRow hheld h fun hb => ⟨hdesc, hrem, hptr, hb⟩
  case fPwait =>
    obtain ⟨hrem, hfull, hne, hidx, hslots⟩ := hinv
    refine phaseInv_waitRow hheld h fun hb => ?_
    split
    case isTrue hi => exact ⟨hfull, hne, hb, hi, hslots⟩
    case isFalse => exact ⟨hfull, hne, slotsHeld_mono hslots (by omega)⟩
  case fRlen =>
    obtain ⟨hrem, hidx, hfull, hb⟩ := hinv
    obtain ⟨-, rfl⟩ := lenRow_eq_next.1 h
    exact ⟨hrem, hfull, loading_writeLen (lenVal s.rem) hb hidx (wordsFor_pos hrem)⟩
  case fLlen =>
    obtain ⟨hfull, hne, hslots, hb⟩ := hinv
    obtain ⟨-, rfl⟩ := lenRow_eq_next.1 h
    exact ⟨hfull, hne, hb, rfl, rfl, hslots⟩
  case wFlen | sAlen | sBlen =>
    obtain ⟨hdesc, hrem, hptr, hb⟩ := hinv
    obtain ⟨-, rfl⟩ := lenRow0_eq_next.1 h
    exact ⟨hdesc, hrem, hptr, loading_writeLen (s := s.setIdx 0) _ hb rfl (by decide)⟩
  case wTlen | sClen =>
    obtain ⟨hdesc, hrem, hptr, hb⟩ := hinv
    obtain ⟨-, rfl⟩ := lenRow0_eq_next.1 h
    exact ⟨hdesc, hrem, hptr, loading_writeLen (s := s.setIdx 0) (lenVal s.rem) hb rfl (wordsFor_pos hrem)⟩
  case wFslot | sAslot =>
    obtain ⟨hdesc, hrem, hptr, hl⟩ := hinv
    have hptr := pointsAfter_loadRow h hptr
    obtain ⟨hd, hr, ⟨hp, hl⟩ | ⟨hp, hidx, hl⟩⟩ := loading_loadRow h hl le_rfl
    · exact phaseInv_of_phase hp ⟨sequenceDesc_congr hd hdesc, hr ▸ hrem, hptr, hl⟩
    · exact phaseInv_of_phase hp ⟨sequenceDesc_congr hd hdesc, hr ▸ hrem, hidx ▸ hptr, hl⟩
  case wTslot =>
    obtain ⟨hdesc, hrem, hptr, hl⟩ := hinv
    have hptr := pointsAfter_loadRow h hptr
    obtain ⟨hd, hr, ⟨hp, hl⟩ | ⟨hp, hidx, hl⟩⟩ := loading_loadRow h hl (wordsFor_le hrem (by omega))
    · exact phaseInv_of_phase hp ⟨sequenceDesc_congr hd hdesc, by rwa [remIn, hr], hptr, by rwa [hr]⟩
    · exact phaseInv_of_phase hp ⟨sequenceDesc_congr hd hdesc, by rwa [remIn, hr], by rwa [hr]⟩
  case sBslot =>
    obtain ⟨hdesc, hrem, hptr, hl⟩ := hinv
    have hptr := pointsAfter_loadRow h hptr
    obtain ⟨hd, hr, ⟨hp, hl⟩ | ⟨hp, hidx, hl⟩⟩ := loading_loadRow h hl (by decide)
    · exact phaseInv_of_phase hp ⟨sequenceDesc_congr hd hdesc, by rwa [remIn, hr], hptr, hl⟩
    · exact phaseInv_of_phase hp ⟨sequenceDesc_congr hd hdesc, by rwa [remIn, hr], hidx ▸ hptr, hl⟩
  case sCslot => exact phaseInv_swapCslot hinv h
  case fRslot => exact phaseInv_fillRslot hinv h
  case fPslot => exact phaseInv_fillPslot hinv h
  case fRstart => exact phaseInv_fillRstart hinv h
  case fLstart => exact phaseInv_fillLstart hinv h
  case sBstart => exact phaseInv_swapBstart hinv h
  case wFstart =>
    obtain ⟨hdesc, hrem, hptr, -⟩ := hinv
    obtain ⟨-, -, rfl⟩ := startRow_eq_next.1 h
    exact phaseInv_streamSelect hdesc (pointsAfter_start hptr (by decide) hrem rfl rfl rfl)
  case sAstart =>
    obtain ⟨hdesc, hrem, hptr, -⟩ := hinv
    obtain ⟨-, -, rfl⟩ := startRow_eq_next.1 h
    exact phaseInv_tierSelect hdesc (pointsAfter_start hptr (by decide) hrem rfl rfl rfl)
  case wTstart | sCstart =>
    obtain ⟨-, -, rfl⟩ := startRow_eq_next.1 h
    trivial

end Sys2Proof.Machine
end

section
/-! PROOFS. Every step of the machine keeps the invariant (spec/10_state.md R22, R25; 40_register_burst_controller.md
R90), whichever agent takes it. -/

namespace Sys2Proof.Machine

/-! ### The bus side -/

/-- Every LEN makes a burst of 1 to 512 bits. -/
theorem busInv_beginBurst (s : State) : busInv s.beginBurst := by
  have hlen : s.len.toNat < 512 := s.len.isLt
  refine ⟨⟨fun _ => payload_ne_nil s.len s.slots, fun _ => rfl⟩, ?_⟩
  rw [State.beginBurst_inflight, payload_length]
  omega

theorem SeqMoved.keeps_busInv {s t : State} (h : SeqMoved s t) (hs : busInv s) : busInv t := by
  cases h with
  | start => simpa [busInv] using busInv_beginBurst s
  | idle | entry | held | passed | length | slot => simpa [busInv] using hs

theorem SeqMoved.mem_eq {s t : State} (h : SeqMoved s t) : t.mem = s.mem := by
  cases h <;> simp

/-! ### The HOST -/

theorem phaseInvAt_of_idle {s : State} (h : s.phase = .idle) : phaseInvAt s s.phase := h ▸ trivial

/-- A well-formed WRPIX or WRPIXS has its source region inside the address space (R58). -/
theorem region_le_of_wellFormed {i : Instr} (hsrc : i.source < 2 ^ 32) (h : i.WellFormed) :
    i.source + i.bytesRead ≤ 2 ^ 32 := by
  rcases h with hzero | hfits <;> omega

theorem sequenceDesc_wrpix {a n : Word} (h : (Instr.wrpix a n).WellFormed) (s : State) (p : Phase) :
    sequenceDesc (s.latch (commandDesc (.wrpix a n)) p) false := by
  have hfits := region_le_of_wellFormed (i := .wrpix a n) a.isLt h
  simpa [sequenceDesc, commandDesc, encode, regionStart, regionSize, encodeDesc_field_eqs, Instr.source,
    Instr.bytesRead] using hfits

theorem sequenceDesc_wrpixs {a n : Word} (h : (Instr.wrpixs a n).WellFormed) (s : State) (p : Phase) :
    sequenceDesc (s.latch (commandDesc (.wrpixs a n)) p) true := by
  have hfits := region_le_of_wellFormed (i := .wrpixs a n) a.isLt h
  simpa [sequenceDesc, commandDesc, encode, regionStart, regionSize, encodeDesc_field_eqs, Instr.source,
    Instr.bytesRead] using hfits

/-- ISSUE enters a phase whose contract the descriptor meets; any other write of the HOST is at `pc = IDLE`. -/
theorem Executed.blockInv {i : Instr} {s t : State} (h : Executed s i t) (hs : BlockInv s) : BlockInv t := by
  obtain ⟨hmem, hbus, hphase⟩ := hs
  cases h with
  | @fill c n hp => exact ⟨hmem, hbus, descKind_encodeDesc false false c n 0⟩
  | wrpix hp ha hw => exact ⟨hmem, hbus, sequenceDesc_wrpix hw s .wEntry⟩
  | wrpixs hp hw => exact ⟨hmem, hbus, sequenceDesc_wrpixs hw s .sEntry⟩
  | start hp => exact ⟨hmem, busInv_beginBurst s, phaseInvAt_of_idle hp⟩
  | setlen hp | wrslot hp => exact ⟨hmem, hbus, phaseInvAt_of_idle hp⟩
  | rdbusy | startNop | waitidlePasses | waitidleHolds => exact ⟨hmem, hbus, hphase⟩

theorem HostActed.blockInv {act : HostAct} {s t : State} (h : HostActed s act t) (hs : BlockInv s) : BlockInv t := by
  obtain ⟨hmem, hbus, hphase⟩ := hs
  cases h with
  | op hd hx => exact hx.blockInv ⟨hmem, hbus, hphase⟩
  | awaitDone | readActive => exact ⟨hmem, hbus, hphase⟩
  | @poke a b => exact ⟨memSet_wf a b hmem, hbus, hphase⟩
  | reset => exact ⟨hmem, invariantAtReset.2⟩

theorem hostStep_keeps_blockInv {s t : State} (hs : BlockInv s) (h : hostStep s = .next t) : BlockInv t := by
  unfold hostStep at h
  split at h
  · cases h; exact hs
  · exact (hostAct_eq_next h).blockInv hs

/-! ### BURST -/

theorem busInv_endBurst (s : State) : busInv s.endBurst := by simp [busInv]

/-- With a burst in flight `pc` is not at a phase whose contract asks for `BUSY = 0`; at any other the completion changes
nothing the contract speaks of. -/
theorem phaseInvAt_endBurst {s : State} {p : Phase} (hb : s.busy = true) (h : phaseInvAt s p) :
    phaseInvAt s.endBurst p := by
  cases p
  case idle | fEntry | fRwait | fPwait | fLwait | wEntry | wFwait | wTwait | sEntry | sAwait | sBwait | sCwait =>
    exact h
  all_goals simp [phaseInvAt, loading, loaded, hb] at h

/-! ### Every step -/

theorem agentStep_keeps_blockInv {a : Agent} {s t : State} (hs : BlockInv s) (h : agentStep a s = .next t) :
    BlockInv t := by
  cases a with
  | host => exact hostStep_keeps_blockInv hs h
  | seq =>
    obtain ⟨hmem, hbus, hphase⟩ := hs
    have hm := seqStep_eq_next h
    exact ⟨hm.mem_eq ▸ hmem, hm.keeps_busInv hbus, phaseInv_seqStep hphase h⟩
  | burst =>
    obtain rfl := opBurst_eq_next.1 h
    split
    · rename_i hb
      obtain ⟨hmem, -, hphase⟩ := hs
      exact ⟨hmem, busInv_endBurst s, phaseInvAt_endBurst hb hphase⟩
    · exact hs

/-- Settles O50: nothing has moved, or one agent has, after a choice of it that writes the schedule only. -/
theorem stepKeepsInvariant : Obligations.StepKeepsInvariant := by
  intro s t hs h
  obtain ⟨-, rfl | ⟨a, l, n, -, h⟩⟩ := step_eq_next h
  · exact hs
  · exact agentStep_keeps_blockInv (s := s.setSched l n) hs h

end Sys2Proof.Machine
end

section
/-! PROOFS. The pure functions of the pixel packer and the byte swap unit (spec/41_pixel_packer.md R110 to R119). -/

namespace Sys2Proof.Machine

/-! ### Lanes and bytes of a word -/

@[simp] theorem lane0_pack2 (p0 p1 : Pixel) : lane0 (pack2 p0 p1) = p0 := BitVec.extractLsb'_append_eq_right

@[simp] theorem lane1_pack2 (p0 p1 : Pixel) : lane1 (pack2 p0 p1) = p1 := BitVec.extractLsb'_append_eq_left

/-- Settles O21, by the fields of an appended word. -/
theorem packedLanes : Obligations.PackedLanes := fun p0 p1 => ⟨rfl, lane0_pack2 p0 p1, lane1_pack2 p0 p1⟩

/-- Two pixels of two bytes are the four bytes. -/
theorem pack2_append (b0 b1 b2 b3 : Byte) : pack2 (b1 ++ b0) (b3 ++ b2) = b3 ++ b2 ++ b1 ++ b0 :=
  BitVec.append_assoc'

@[simp] theorem bswap16_append (b0 b1 : Byte) : bswap16 (b1 ++ b0) = b0 ++ b1 := by
  rw [bswap16, BitVec.extractLsb'_append_eq_right, BitVec.extractLsb'_append_eq_left]

/-- A pixel is its two bytes. -/
theorem bytes_append (p : Pixel) : p.extractLsb' 8 8 ++ p.extractLsb' 0 8 = p :=
  (BitVec.extractLsb'_append_extractLsb'_eq_extractLsb' rfl).trans BitVec.extractLsb'_eq_self

theorem bswap16_bswap16 (p : Pixel) : bswap16 (bswap16 p) = p :=
  (bswap16_append (p.extractLsb' 8 8) (p.extractLsb' 0 8)).trans (bytes_append p)

/-- Settles O22: both lanes are the swapped colour, whose bytes stand side by side. -/
theorem fillWordLanes : Obligations.FillWordLanes := fun c =>
  ⟨lane0_pack2 _ _, lane1_pack2 _ _, pack2_append (c.extractLsb' 8 8) (c.extractLsb' 0 8) _ _⟩

/-! ### Swapped words -/

theorem swapWord_eq_pack2 (b0 b1 b2 b3 : Byte) :
    swapWord b0 b1 b2 b3 = pack2 (bswap16 (b1 ++ b0)) (bswap16 (b3 ++ b2)) := by
  rw [bswap16_append, bswap16_append, pack2_append, swapWord]

theorem swapHalf_eq_pack2 (b0 b1 : Byte) : swapHalf b0 b1 = pack2 (bswap16 (b1 ++ b0)) 0 := by
  have hzero : (0 : Pixel) = 0#8 ++ 0#8 := rfl
  rw [bswap16_append, hzero, pack2_append, swapHalf]

/-- Settles O23: both words are PACK2 of swapped pixels. -/
theorem swapWordSwapsEachPixel : Obligations.SwapWordSwapsEachPixel := fun b0 b1 b2 b3 =>
  ⟨rfl, swapWord_eq_pack2 b0 b1 b2 b3, rfl, swapHalf_eq_pack2 b0 b1⟩

/-- The bytes of a word are those of its lanes. -/
theorem byteOf_eq_lane_byte (w : Word) :
    byteOf w 0 = (lane0 w).extractLsb' 0 8 ∧ byteOf w 1 = (lane0 w).extractLsb' 8 8 ∧
    byteOf w 2 = (lane1 w).extractLsb' 0 8 ∧ byteOf w 3 = (lane1 w).extractLsb' 8 8 := by
  refine ⟨?_, ?_, ?_, ?_⟩
  all_goals exact Eq.symm (extractLsb'_extractLsb'_add w (by decide))

/-- The bytes of a SWAPWORD, in the order of their addresses once stored. -/
theorem byteOf_swapWord (b0 b1 b2 b3 : Byte) :
    byteOf (swapWord b0 b1 b2 b3) 0 = b1 ∧ byteOf (swapWord b0 b1 b2 b3) 1 = b0 ∧
    byteOf (swapWord b0 b1 b2 b3) 2 = b3 ∧ byteOf (swapWord b0 b1 b2 b3) 3 = b2 := by
  simp only [byteOf_eq_lane_byte, swapWord_eq_pack2, lane0_pack2, lane1_pack2, bswap16_append,
    BitVec.extractLsb'_append_eq_right, BitVec.extractLsb'_append_eq_left, and_self]

/-- Settles O24: a pixel by its two bytes, a word by its four. -/
theorem swapIsInvolution : Obligations.SwapIsInvolution := by
  refine ⟨bswap16_bswap16, fun b0 b1 b2 b3 w hw => ?_⟩
  obtain ⟨h0, h1, h2, h3⟩ := byteOf_swapWord b0 b1 b2 b3
  rw [hw, h0, h1, h2, h3, swapWord]

/-! ### Counts -/

/-- The windows of a count, as the upper bits of the count. -/
theorem windows_toNat (n : Word) : (n.extractLsb' 5 27).toNat = n.toNat / 32 := by
  rw [BitVec.extractLsb'_toNat, Nat.shiftRight_eq_div_pow]
  omega

theorem splitFull_eq_append (n : Word) : splitFull n = n.extractLsb' 5 27 ++ 0#5 := by
  apply BitVec.eq_of_toNat_eq
  rw [splitFull_toNat, BitVec.toNat_append, windows_toNat, BitVec.toNat_ofNat, Nat.zero_mod, Nat.or_zero,
    Nat.shiftLeft_eq]
  omega

/-- Settles O25, by the values of the two parts. -/
theorem splitOfCount : Obligations.SplitOfCount := by
  intro c
  have hrem := splitRem_toNat c
  have hfull := splitFull_toNat c
  have hwindows := windows_toNat c
  exact ⟨hrem, rfl, splitFull_eq_append c, by omega, by omega⟩

theorem burstLen_toNat {n : Nat} (hlo : 1 ≤ n) (hhi : n ≤ 32) : (burstLen n).toNat = 16 * n - 1 := by
  rw [burstLen, BitVec.toNat_ofNat]
  omega

/-- The length SETLEN takes from SEQ is that of a burst of `REM` pixels (R91, R119). -/
theorem lenVal_eq_burstLen {n : Word} (hlo : 1 ≤ n.toNat) (hhi : n.toNat ≤ 32) : lenVal n = burstLen n.toNat := by
  apply BitVec.eq_of_toNat_eq
  rw [burstLen_toNat hlo hhi]
  simp only [lenVal, BitVec.toNat_setWidth, BitVec.toNat_sub, BitVec.toNat_mul, BitVec.reduceToNat]
  omega

/-- A burst of `n` pixels covers the slots of its words (R118). -/
theorem burstLen_covers {n : Nat} (hlo : 1 ≤ n) (hhi : n ≤ 32) : (burstLen n).toNat / 32 + 1 = wordsFor n := by
  rw [burstLen_toNat hlo hhi, wordsFor]
  omega

theorem wordsFor_le_slotCount {n : Nat} (hhi : n ≤ 32) : wordsFor n ≤ 16 := by
  unfold wordsFor
  omega

/-- Settles O26: the length is that of a burst of `n` pixels. -/
theorem lenvalCoversWords : Obligations.LenvalCoversWords := by
  intro n hlo hhi
  have hn : (BitVec.ofNat 32 n).toNat = n := Nat.mod_eq_of_lt (by omega)
  rw [lenVal_eq_burstLen (hn.symm ▸ hlo) (hn.symm ▸ hhi), hn]
  exact ⟨burstLen_toNat hlo hhi, burstLen_covers hlo hhi, wordsFor_le_slotCount hhi⟩

end Sys2Proof.Machine
end

section
/-! PROOFS. Runs of the machine (spec/00_scope.md R10; 40_register_burst_controller.md R95, R97; 45_host_command_port.md
R175): how they are put together, what they leave alone, and what an agent finds when BURST may have stepped before
it. -/

namespace Sys2Proof.Machine

/-! ### Runs -/

/-- The `LEN` of the burst a step has started, if it has. -/
def startedBy (s t : State) : List Len := if s.busy = false ∧ t.busy = true then [t.len] else []

/-- Some number of steps leads from `s` to `t`, and the bursts started on the way have the lengths `lens`. -/
inductive RunsTo : State → State → List Len → Prop
  | refl (s : State) : RunsTo s s []
  | step {s t u : State} {lens : List Len} (h : step s = .next t) (hrun : RunsTo t u lens) :
      RunsTo s u (startedBy s t ++ lens)

theorem runLog_succ {s t u : State} {k : Nat} {lens : List Len} (h : step s = .next t)
    (hrun : runLog k t = some (u, lens)) : runLog (k + 1) s = some (u, startedBy s t ++ lens) := by
  simp only [runLog, h, nextOf, hrun, startedBy]
  split <;> rfl

theorem RunsTo.exists_runLog {s t : State} {lens : List Len} (h : RunsTo s t lens) :
    ∃ k, runLog k s = some (t, lens) := by
  induction h with
  | refl s => exact ⟨0, rfl⟩
  | step h _ ih =>
    obtain ⟨k, hk⟩ := ih
    exact ⟨k + 1, runLog_succ h hk⟩

theorem RunsTo.trans {s t u : State} {lens lens' : List Len} (h : RunsTo s t lens) (h' : RunsTo t u lens') :
    RunsTo s u (lens ++ lens') := by
  induction h with
  | refl s => exact h'
  | step hs _ ih =>
    rw [List.append_assoc]
    exact .step hs (ih h')

theorem RunsTo.single {s t : State} (h : Machine.step s = .next t) : RunsTo s t (startedBy s t) := by
  simpa using RunsTo.step h (.refl t)

theorem startedBy_of_not_busy {s t : State} (h : t.busy = false) : startedBy s t = [] := by
  simp [startedBy, h]

theorem startedBy_of_start {s t : State} (hs : s.busy = false) (ht : t.busy = true) : startedBy s t = [t.len] :=
  if_pos ⟨hs, ht⟩

theorem startedBy_of_busy_eq {s t : State} (h : t.busy = s.busy) : startedBy s t = [] := by
  simp [startedBy, h]

/-- A step that leaves `BUSY = 0` starts no burst. -/
theorem RunsTo.step_not_busy {s t u : State} {lens : List Len} (h : Machine.step s = .next t) (hb : t.busy = false)
    (hrun : RunsTo t u lens) : RunsTo s u lens := by
  simpa [startedBy_of_not_busy hb] using RunsTo.step h hrun

/-! ### What a run leaves alone -/

/-- The HOST wants nothing and the bus is serial: SEQ and BURST go on alone. -/
abbrev hostSilent (s : State) : Prop := s.host = [] ∧ s.params.busMode = .serial

/-- What SEQ and BURST never write (R20, R53). -/
structure Undisturbed (s t : State) : Prop where
  host : t.host = s.host
  params : t.params = s.params
  mem : t.mem = s.mem
  desc : t.desc = s.desc
  result : t.result = s.result

theorem Undisturbed.trans {s t u : State} (h : Undisturbed s t) (h' : Undisturbed t u) : Undisturbed s u :=
  ⟨h'.host.trans h.host, h'.params.trans h.params, h'.mem.trans h.mem, h'.desc.trans h.desc,
    h'.result.trans h.result⟩

theorem Undisturbed.hostSilent {s t : State} (h : Undisturbed s t) (hs : hostSilent s) : hostSilent t :=
  ⟨h.host.trans hs.1, h.params ▸ hs.2⟩

theorem SeqMoved.undisturbed {s t : State} (h : SeqMoved s t) : Undisturbed s t := by
  constructor <;> cases h <;> simp

theorem Stepped.undisturbed {s t : State} (h : Stepped s t) (hs : s.host = []) : Undisturbed s t := by
  cases h with
  | none | burst => exact ⟨rfl, rfl, rfl, rfl, rfl⟩
  | host l n hh => simp [hs] at hh
  | seq l n hp hm => exact Undisturbed.trans (t := s.setSched l n) ⟨rfl, rfl, rfl, rfl, rfl⟩ hm.undisturbed

theorem RunsTo.undisturbed {s t : State} {lens : List Len} (h : RunsTo s t lens) (hs : s.host = []) :
    Undisturbed s t := by
  induction h with
  | refl s => exact ⟨rfl, rfl, rfl, rfl, rfl⟩
  | step hstep _ ih =>
    have hfirst := (step_eq_next_cases hstep).undisturbed hs
    exact hfirst.trans (ih (hfirst.host.trans hs))

/-! ### An agent's step, BURST perhaps before it -/

/-- `u` is `s` after the schedule has been asked and perhaps the burst in flight has completed. -/
def BusMoved (s u : State) : Prop :=
  u = { s with tx := u.tx, inflight := u.inflight, busy := u.busy, sched := u.sched, turn := u.turn } ∧
    sentSoFar u = sentSoFar s

theorem busMoved_setSched (s : State) (l : List Agent) (n : Nat) : BusMoved s (s.setSched l n) := ⟨rfl, rfl⟩

theorem busMoved_endBurst {s : State} (hb : s.busy = true) (l : List Agent) (n : Nat) :
    BusMoved s (s.setSched l n).endBurst :=
  ⟨rfl, sentSoFar_endBurst (s := s.setSched l n) hb⟩

theorem exists_chooseAgent {s : State} {a : Agent} (ha : enabled s a = true) :
    ∃ b l n, enabled s b = true ∧ chooseAgent s = some (b, s.setSched l n) := by
  have hmem : a ∈ enabledAgents s := mem_enabledAgents.2 ha
  obtain ⟨⟨b, u⟩, hchosen⟩ : ∃ r, chooseAgent s = some r := by
    unfold chooseAgent
    split
    case h_1 hnone => simp [hnone] at hmem
    case h_2 | h_3 => exact ⟨_, rfl⟩
  obtain ⟨hb, l, n, rfl⟩ := chooseAgent_some hchosen
  exact ⟨b, l, n, hb, hchosen⟩

theorem enabled_setSched (s : State) (l : List Agent) (n : Nat) (a : Agent) :
    enabled (s.setSched l n) a = enabled s a := by
  cases a <;> rfl

/-- Where no agent but `a` and BURST has a step, and `a` is the one that has a step while `BUSY = 0`, the machine comes
to a step of `a`, perhaps after the completion of the burst in flight. -/
theorem exists_agentStep {s : State} {a : Agent} (hs : s.params.busMode = .serial)
    (honly : ∀ b, enabled s b = true → b = a ∨ b = .burst)
    (halone : ∀ u, BusMoved s u → u.busy = false → enabledAgents u = [a]) :
    ∃ u, BusMoved s u ∧ enabled u a = true ∧ ∀ t, agentStep a u = .next t → RunsTo s t (startedBy u t) := by
  have hlast (u : State) (hu : BusMoved s u) (hb : u.busy = false) : step u = agentStep a u ∧ enabled u a = true := by
    have hagents := halone u hu hb
    have hserial : u.params.busMode = .serial := by rw [hu.1]; exact hs
    exact ⟨step_of_enabledAgents_singleton hserial hagents, mem_enabledAgents.1 (by simp [hagents])⟩
  cases hb : s.busy with
  | false =>
    obtain ⟨hstep, hen⟩ := hlast s ⟨rfl, rfl⟩ hb
    exact ⟨s, ⟨rfl, rfl⟩, hen, fun t ht => .single (hstep.trans ht)⟩
  | true =>
    have hburst : enabled s .burst = true := hb
    obtain ⟨b, l, n, hen, hchosen⟩ := exists_chooseAgent hburst
    have hstep := step_of_chooseAgent hs hchosen
    obtain rfl | rfl := honly b hen
    · exact ⟨_, busMoved_setSched s l n, (enabled_setSched s l n b).trans hen, fun t ht => .single (hstep.trans ht)⟩
    · have hmoved := busMoved_endBurst hb l n
      obtain ⟨hstep', hen'⟩ := hlast _ hmoved rfl
      exact ⟨_, hmoved, hen', fun t ht =>
        .step_not_busy (hstep.trans (opBurst_of_busy hb)) rfl (.single (hstep'.trans ht))⟩

/-! ### ISSUE -/

/-- A command handed over where it may be issued is latched, perhaps after the completion of a burst in flight. -/
theorem exists_run_issue {s : State} {p : PortWord} {i : Instr} {d : Desc} {entry : Phase} (hs : standing s)
    (hd : decodePort p = .ok i) (hx : ∀ u, standing u → exec i u = .next (u.latch d entry)) :
    ∃ u, BusMoved s u ∧ RunsTo (asking s p) ((u.setHost []).latch d entry) [] := by
  obtain ⟨hphase, hserial⟩ := hs
  have hhost : (asking s p).host = [.op p] := rfl
  have honly : ∀ b, enabled (asking s p) b = true → b = .host ∨ b = .burst := by
    intro b hb
    cases b
    case seq => simp [enabled, seqEnabled, State.seqActive, asking, hphase] at hb
    case host => exact .inl rfl
    case burst => exact .inr rfl
  obtain ⟨u, ⟨hu, hsent⟩, -, hrun⟩ := exists_agentStep (s := asking s p) hserial honly fun u ⟨hu, _⟩ hb =>
    enabledAgents_eq_host (p := p) (rest := []) (by rw [hu]; rfl) (by rw [hu]; exact hphase) hb
  have hstep : agentStep .host u = .next ((u.setHost []).latch d entry) := by
    refine (hostStep_of_decodes (p := p) (rest := []) (by rw [hu]; rfl) hd).trans (hx _ ⟨?_, ?_⟩)
    · rw [hu]; exact hphase
    · rw [hu]; exact hserial
  have hmoved : BusMoved s (u.setHost s.host) := ⟨by rw [hu]; rfl, hsent⟩
  have hlog : startedBy u ((u.setHost []).latch d entry) = [] := startedBy_of_busy_eq rfl
  exact ⟨u.setHost s.host, hmoved, hlog ▸ hrun _ hstep⟩

/-! ### SEQ -/

/-- With the HOST silent and a command active, SEQ comes to its step. -/
theorem exists_seqStep {s : State} (hs : hostSilent s) (hp : s.phase ≠ .idle) :
    ∃ u, BusMoved s u ∧ enabled u .seq = true ∧ ∀ t, seqStep u = .next t → RunsTo s t (startedBy u t) := by
  obtain ⟨hhost, hserial⟩ := hs
  refine exists_agentStep hserial (fun b hb => ?_) fun u ⟨hu, _⟩ hb =>
    enabledAgents_eq_seq (by rw [hu]; exact hp) hb (by rw [hu]; exact hhost)
  cases b
  case host => simp [not_enabled_host hhost] at hb
  case seq => exact .inl rfl
  case burst => exact .inr rfl

/-- A WAITIDLE row is passed once no burst is in flight. -/
theorem exists_run_wait {s : State} {p : Phase} (hs : hostSilent s) (hw : s.phase.isWait = true)
    (hrow : ∀ u, BusMoved s u → seqStep u = waitRow p u) :
    ∃ u, BusMoved s u ∧ u.busy = false ∧ RunsTo s (u.setPhase p) [] := by
  obtain ⟨u, hu, hen, hrun⟩ := exists_seqStep hs (phase_ne_idle_of_isWait hw)
  have hwait : u.phase.isWait = true := by rw [hu.1]; exact hw
  have hb : u.busy = false := by
    simp only [enabled, seqEnabled, hwait, Bool.true_and, Bool.and_eq_true, Bool.not_eq_true'] at hen
    exact hen.2
  have hlog : startedBy u (u.setPhase p) = [] := startedBy_of_busy_eq rfl
  exact ⟨u, hu, hb, hlog ▸ hrun _ ((hrow u hu).trans (waitRow_of_not_busy p hb))⟩

/-- With no burst in flight SEQ steps at once. -/
theorem runsTo_of_seqStep {s t : State} (hs : hostSilent s) (hp : s.phase ≠ .idle) (hb : s.busy = false)
    (h : seqStep s = .next t) : RunsTo s t (startedBy s t) :=
  .single ((step_of_enabledAgents_singleton hs.2 (enabledAgents_eq_seq hp hb hs.1)).trans h)

/-- Once the last command has completed the machine comes to rest, all bursts sent (R176, R178). -/
theorem exists_run_quiet {s : State} (hs : hostSilent s) (hp : s.phase = .idle) :
    ∃ u, BusMoved s u ∧ quiet u ∧ RunsTo s u [] := by
  obtain ⟨hhost, hserial⟩ := hs
  cases hb : s.busy with
  | false => exact ⟨s, ⟨rfl, rfl⟩, ⟨hp, hb, hhost, hserial⟩, .refl s⟩
  | true =>
    have hburst : enabledAgents s = [.burst] := by
      have hen : enabled s .burst = true := hb
      have hseq : enabled s .seq = false := by simp [enabled, seqEnabled, State.seqActive, hp]
      simp [enabledAgents, not_enabled_host hhost, hseq, hen]
    have hstep := (step_of_enabledAgents_singleton hserial hburst).trans (opBurst_of_busy hb)
    exact ⟨s.endBurst, busMoved_endBurst hb s.sched s.turn, ⟨hp, rfl, hhost, hserial⟩,
      .step_not_busy hstep rfl (.refl _)⟩

end Sys2Proof.Machine
end

section
/-! PROOFS. One burst of WRPIX or WRPIXS, from its WAITIDLE row to its START row (spec/43_pixel_stream_writer.md R150;
44_byte_swap_adapter.md R167): the rows of all their bursts are of one shape. -/

namespace Sys2Proof.Machine

/-! ### The slots as they are loaded -/

/-- The slots once the words `word 0` to `word (k - 1)` have been written from slot 0 on. -/
def slotsAfter (x : Vector Word 16) (word : Nat → Word) (k : Nat) : Vector Word 16 :=
  Vector.ofFn fun j => if j.val < k then word j else x[j]

theorem slotsAfter_get (x : Vector Word 16) (word : Nat → Word) (k j : Nat) (hj : j < 16) :
    (slotsAfter x word k)[j] = if j < k then word j else x[j] := by
  simp [slotsAfter]

theorem slotsAfter_zero (x : Vector Word 16) (word : Nat → Word) : slotsAfter x word 0 = x := by
  ext j hj
  simp [slotsAfter_get]

theorem slotsAfter_succ (x : Vector Word 16) (word : Nat → Word) {k : Nat} (hk : k < 16) :
    (slotsAfter x word k).set k (word k) = slotsAfter x word (k + 1) := by
  ext j hj
  simp only [Vector.getElem_set, slotsAfter_get]
  split
  case isTrue h => simp [h]
  case isFalse h =>
    have hiff : j < k ↔ j < k + 1 := by omega
    simp only [hiff]

/-! ### The rows of a burst -/

/-- A burst of a Sequence command: its four rows, its pixels, the words it loads, where `PTR` stands after each number
of them, and `REM` and `pc` after its START. -/
structure Burst where
  wait : Phase
  length : Phase
  slot : Phase
  start : Phase
  pixels : Nat
  word : Nat → Word
  ptr : Nat → Word
  left : Word
  next : Phase

/-- The slot words of the burst. -/
abbrev Burst.words (b : Burst) : Nat := wordsFor b.pixels

/-- The phase table has the rows of the burst, where `REM` is `r` and the buffers are `m`. -/
structure Burst.RowsOf (b : Burst) (m : Memory) (r : Word) : Prop where
  isWait : b.wait.isWait = true
  active : b.length ≠ .idle ∧ b.slot ≠ .idle ∧ b.start ≠ .idle
  pixels_pos : 1 ≤ b.pixels
  pixels_le : b.pixels ≤ 32
  waitRow : ∀ u, u.phase = b.wait → seqStep u = waitRow b.length u
  lenRow : ∀ u, u.phase = b.length → u.rem = r → seqStep u = lenRow0 (burstLen b.pixels) b.slot u
  loadRow : ∀ u k, u.phase = b.slot → u.rem = r → u.mem = m → u.idx.toNat = k → k < b.words → u.ptr = b.ptr k →
    seqStep u = loadRow (some (b.word k)) (b.ptr (k + 1) - b.ptr k) b.words b.slot b.start u
  startRow : ∀ u, u.phase = b.start → u.rem = r →
    seqStep u = startRow (fun t => (t.setRem b.left).setPhase b.next) u

/-- The first `k` words of the burst are in the slots, which were `x`; the bus has, or is about to have, `sent`. -/
structure Burst.Loaded (b : Burst) (m : Memory) (r : Word) (x : Vector Word 16) (sent : List Bool) (k : Nat)
    (s : State) : Prop where
  silent : hostSilent s
  mem : s.mem = m
  rem : s.rem = r
  ptr : s.ptr = b.ptr k
  slots : s.slots = slotsAfter x b.word k
  sent : sentSoFar s = sent

/-- The burst is on its way and everything is as its words, its length and its START leave it. -/
structure Burst.Sent (b : Burst) (s t : State) : Prop where
  phase : t.phase = b.next
  rem : t.rem = b.left
  ptr : t.ptr = b.ptr b.words
  len : t.len = burstLen b.pixels
  slots : t.slots = slotsAfter s.slots b.word b.words
  sent : sentSoFar t = sentSoFar s ++ payload (burstLen b.pixels) (slotsAfter s.slots b.word b.words)

section
variable {b : Burst} {m : Memory} {r : Word} {x : Vector Word 16} {sent : List Bool}

/-- WAITIDLE and SETLEN. -/
theorem Burst.RowsOf.exists_run_length {s : State} (hrows : b.RowsOf m r) (hs : b.Loaded m r x sent 0 s)
    (hp : s.phase = b.wait) :
    ∃ t, RunsTo s t [] ∧ b.Loaded m r x sent 0 t ∧ t.phase = b.slot ∧ t.idx.toNat = 0 ∧
      loading t (burstLen b.pixels) b.words := by
  obtain ⟨u, ⟨hu, hsent⟩, hb, hrun⟩ := exists_run_wait hs.silent (hp ▸ hrows.isWait) fun u ⟨hu, _⟩ =>
    hrows.waitRow u (by rw [hu]; exact hp)
  have hvrem : (u.setPhase b.length).rem = r := by rw [hu]; exact hs.rem
  have hstep : seqStep (u.setPhase b.length) =
      .next ((((u.setPhase b.length).writeLen (burstLen b.pixels)).setIdx 0).setPhase b.slot) :=
    (hrows.lenRow _ rfl hvrem).trans (lenRow0_eq_next.2 ⟨hb, rfl⟩)
  have hsilent : hostSilent (u.setPhase b.length) := by rw [hu]; exact hs.silent
  have hrun' := runsTo_of_seqStep hsilent hrows.active.1 hb hstep
  rw [startedBy_of_busy_eq (by rfl)] at hrun'
  refine ⟨_, hrun.trans hrun', ⟨hsilent, ?_, hvrem, ?_, ?_, ?_⟩, rfl, rfl, ?_⟩
  · rw [← hs.mem, hu]; rfl
  · rw [← hs.ptr, hu]; rfl
  · rw [← hs.slots, hu]; rfl
  · exact hsent.trans hs.sent
  · have hpos : 0 < b.words := Nat.div_pos (by have := hrows.pixels_pos; omega) (by decide)
    exact loading_writeLen (s := (u.setPhase b.length).setIdx 0) _ hb rfl hpos

/-- One slot row. -/
theorem Burst.RowsOf.exists_run_slot {s : State} {k : Nat} (hrows : b.RowsOf m r) (hs : b.Loaded m r x sent k s)
    (hp : s.phase = b.slot) (hk : s.idx.toNat = k) (hl : loading s (burstLen b.pixels) b.words) :
    ∃ t, RunsTo s t [] ∧ b.Loaded m r x sent (k + 1) t ∧ t.idx.toNat = k + 1 ∧
      ((t.phase = b.slot ∧ loading t (burstLen b.pixels) b.words) ∨
        (t.phase = b.start ∧ k + 1 = b.words ∧ loaded t (burstLen b.pixels) b.words)) := by
  have hlimit : b.words ≤ 16 := wordsFor_le_slotCount hrows.pixels_le
  have ⟨hb, _, _, hlt, _⟩ := hl
  have hk16 : k < 16 := by omega
  have hrow := hrows.loadRow s k hp hs.rem hs.mem hk (hk ▸ hlt) hs.ptr
  obtain ⟨t, ht⟩ : ∃ t, Machine.loadRow (some (b.word k)) (b.ptr (k + 1) - b.ptr k) b.words b.slot b.start s =
      .next t := ⟨_, loadRow_eq_next.2 ⟨_, rfl, by omega, hb, rfl⟩⟩
  have hidx := hk ▸ loadRow_idx ht
  obtain ⟨-, -, hphase⟩ := loading_loadRow ht hl hlimit
  obtain ⟨v, hv, -, -, rfl⟩ := loadRow_eq_next.1 ht
  obtain rfl := Option.some.inj hv
  have hrun := runsTo_of_seqStep hs.silent (hp ▸ hrows.active.2.1) hb (hrow.trans ht)
  rw [startedBy_of_busy_eq (by rfl)] at hrun
  refine ⟨_, hrun, ⟨hs.silent, hs.mem, hs.rem, ?_, ?_, hs.sent⟩, hidx, ?_⟩
  · simp [hs.ptr]
  · have hset : (s.idx.setWidth 4).toNat = k := (toNat_setWidth_idx (hk ▸ hk16)).trans hk
    simp only [State.setPtr_slots, State.setPhase_slots, State.setIdx_slots, State.writeSlot_slots, hset, hs.slots]
    exact slotsAfter_succ x b.word hk16
  · obtain hstay | ⟨hstart, hi, hloaded⟩ := hphase
    · exact .inl hstay
    · exact .inr ⟨hstart, hidx.symm.trans hi, hloaded⟩

/-- The slot rows that are left, by induction on their number. -/
theorem Burst.RowsOf.exists_run_slots (hrows : b.RowsOf m r) {n k : Nat} {s : State} (hn : b.words = k + n)
    (hs : b.Loaded m r x sent k s) (hp : s.phase = b.slot) (hk : s.idx.toNat = k)
    (hl : loading s (burstLen b.pixels) b.words) :
    ∃ t, RunsTo s t [] ∧ b.Loaded m r x sent b.words t ∧ t.phase = b.start ∧
      loaded t (burstLen b.pixels) b.words := by
  induction n generalizing k s with
  | zero =>
    obtain ⟨-, -, -, hlt, -⟩ := hl
    omega
  | succ n ih =>
    obtain ⟨u, hrun, hu, hidx, ⟨hphase, hl⟩ | ⟨hphase, hlast, hl⟩⟩ := hrows.exists_run_slot hs hp hk hl
    · obtain ⟨t, hrun', ht⟩ := ih (by omega) hu hphase hidx hl
      exact ⟨t, hrun.trans hrun', ht⟩
    · exact ⟨u, hrun, hlast ▸ hu, hphase, hl⟩

/-- START. -/
theorem Burst.RowsOf.runsTo_start {s : State} (hrows : b.RowsOf m r) (hs : b.Loaded m r x sent b.words s)
    (hp : s.phase = b.start) (hl : loaded s (burstLen b.pixels) b.words) :
    RunsTo s ((s.beginBurst.setRem b.left).setPhase b.next) [burstLen b.pixels] := by
  obtain ⟨hb, hwritten, hlen, hheld⟩ := hl
  have hcovers : s.len.toNat / 32 + 1 = b.words := hlen ▸ burstLen_covers hrows.pixels_pos hrows.pixels_le
  have hst : startable s = true := startable_iff.2 ⟨hwritten, hcovers.symm ▸ hheld⟩
  have hstep := (hrows.startRow s hp hs.rem).trans (startRow_eq_next.2 ⟨hb, hst, rfl⟩)
  have hrun := runsTo_of_seqStep hs.silent (hp ▸ hrows.active.2.2) hb hstep
  rwa [startedBy_of_start hb rfl, State.setPhase_len, State.setRem_len, State.beginBurst_len, hlen] at hrun

end

/-- A whole burst: WAITIDLE, SETLEN, the slot rows, START. -/
theorem Burst.RowsOf.exists_run {b : Burst} {m : Memory} {s : State} (hrows : b.RowsOf m s.rem) (hs : hostSilent s)
    (hm : s.mem = m) (hp : s.phase = b.wait) (hptr : s.ptr = b.ptr 0) :
    ∃ t, RunsTo s t [burstLen b.pixels] ∧ b.Sent s t := by
  have hnone : b.Loaded m s.rem s.slots (sentSoFar s) 0 s := ⟨hs, hm, rfl, hptr, (slotsAfter_zero _ _).symm, rfl⟩
  obtain ⟨u, hrun, hu, hphase, hidx, hl⟩ := hrows.exists_run_length hnone hp
  obtain ⟨v, hrun', hv, hphase, hl⟩ := hrows.exists_run_slots (Nat.zero_add _).symm hu hphase hidx hl
  have hrun'' := hrows.runsTo_start hv hphase hl
  obtain ⟨hb, -, hlen, -⟩ := hl
  refine ⟨_, (hrun.trans hrun').trans hrun'', rfl, rfl, hv.ptr, hlen, hv.slots, ?_⟩
  have hsent : sentSoFar ((v.beginBurst.setRem b.left).setPhase b.next) = sentSoFar v ++ payload v.len v.slots :=
    sentSoFar_beginBurst hb
  rw [hsent, hv.sent, hlen, hv.slots]

/-! ### The pixels of a burst -/

/-- The pixel `k` of the words of a burst. -/
def wordPixel (word : Nat → Word) (k : Nat) : Pixel := if k % 2 = 0 then lane0 (word (k / 2)) else lane1 (word (k / 2))

/-- A burst of `n` pixels goes on the bus as the lanes of its words in their order, the low byte of each first (R96). -/
theorem payload_slotsAfter (x : Vector Word 16) (word : Nat → Word) {n : Nat} (hlo : 1 ≤ n) (hhi : n ≤ 32) :
    payload (burstLen n) (slotsAfter x word (wordsFor n)) = bytesBits ((List.range n).flatMap fun k =>
      [(wordPixel word k).extractLsb' 0 8, (wordPixel word k).extractLsb' 8 8]) := by
  have hlen := burstLen_toNat hlo hhi
  have hn : ((burstLen n).toNat + 1) / 16 = n := by omega
  rw [payload_eq_pixels _ (by omega), hn]
  refine congrArg bytesBits (List.flatMap_congr fun k hk => ?_)
  have hslot : k / 2 < 16 ∧ k / 2 < wordsFor n := by
    have := List.mem_range.1 hk
    unfold wordsFor
    omega
  have hword : (slotsAfter x word (wordsFor n))[k / 2]?.getD 0 = word (k / 2) := by
    simp [hslot.1, slotsAfter_get, hslot.2]
  simp only [wirePixel, wordPixel, hword]

end Sys2Proof.Machine
end

section
/-! PROOFS. What WRPIXS sends (spec/44_byte_swap_adapter.md R160 to R169): its bursts, and the whole command from its
ISSUE to the quiet state after it. -/

namespace Sys2Proof.Machine

/-! ### The source bytes -/

/-- A region inside the address space with every byte readable (R57, R58). -/
abbrev readableRegion (m : Memory) (a n : Nat) : Prop := readable m a n = true ∧ a + n ≤ 2 ^ 32

/-- The byte at an address of a readable region. -/
abbrev byteAt (m : Memory) (a : Nat) : Byte := (memRead m a).getD 0

theorem memRead_of_readable {m : Memory} {a n k : Nat} (h : readable m a n = true) (hk : k < n) :
    memRead m (a + k) = some (byteAt m (a + k)) := by
  obtain ⟨b, hb⟩ := Option.isSome_iff_exists.1 (List.all_eq_true.1 h k (List.mem_range.2 hk))
  rw [byteAt, hb, Option.getD_some]

theorem readableRegion_sub {m : Memory} {a n k n' : Nat} (h : readableRegion m a n) (hk : k + n' ≤ n) :
    readableRegion m (a + k) n' := by
  obtain ⟨hread, hfits⟩ := h
  refine ⟨List.all_eq_true.2 fun i hi => ?_, by omega⟩
  have hin : k + i < n := by have := List.mem_range.1 hi; omega
  rw [Nat.add_assoc, memRead_of_readable hread hin, Option.isSome_some]

theorem readableRegion_of_le {m : Memory} {a n n' : Nat} (h : readableRegion m a n) (hn : n' ≤ n) :
    readableRegion m a n' := readableRegion_sub (k := 0) h (by omega)

theorem readByte_of_readable {m : Memory} {a n k : Nat} (h : readableRegion m a n) (hk : k < n) :
    readByte m (BitVec.ofNat 32 a + BitVec.ofNat 32 k) = some (byteAt m (a + k)) := by
  obtain ⟨hread, hfits⟩ := h
  have haddr : (BitVec.ofNat 32 a + BitVec.ofNat 32 k).toNat = a + k := by
    rw [← BitVec.ofNat_add, BitVec.toNat_ofNat, Nat.mod_eq_of_lt (by omega)]
  rw [readByte, haddr, memRead_of_readable hread hk]

theorem readByte_ptr_of_readable {m : Memory} {a n : Nat} (h : readableRegion m a n) (hn : 0 < n) :
    readByte m (BitVec.ofNat 32 a) = some (byteAt m a) := by
  simpa using readByte_of_readable h hn

theorem nextWord_of_readable {u : State} {a : Nat} (h : readableRegion u.mem a 4) (hptr : u.ptr = BitVec.ofNat 32 a) :
    nextWord u =
      some (swapWord (byteAt u.mem a) (byteAt u.mem (a + 1)) (byteAt u.mem (a + 2)) (byteAt u.mem (a + 3))) := by
  have h0 := readByte_ptr_of_readable h (by decide)
  have h1 : readByte u.mem (BitVec.ofNat 32 a + 1) = _ := readByte_of_readable h (k := 1) (by decide)
  have h2 : readByte u.mem (BitVec.ofNat 32 a + 2) = _ := readByte_of_readable h (k := 2) (by decide)
  have h3 : readByte u.mem (BitVec.ofNat 32 a + 3) = _ := readByte_of_readable h (k := 3) (by decide)
  simp only [nextWord, hptr, h0, h1, h2, h3]

theorem nextHalf_of_readable {u : State} {a : Nat} (h : readableRegion u.mem a 2) (hptr : u.ptr = BitVec.ofNat 32 a) :
    nextHalf u = some (swapHalf (byteAt u.mem a) (byteAt u.mem (a + 1))) := by
  have h0 := readByte_ptr_of_readable h (by decide)
  have h1 : readByte u.mem (BitVec.ofNat 32 a + 1) = _ := readByte_of_readable h (k := 1) (by decide)
  simp only [nextHalf, hptr, h0, h1]

/-! ### The words of a burst -/

/-- Word `j` of a burst of `n` pixels at `a`: NEXTWORD, or NEXTHALF for an odd count's last pixel (R160, R167). -/
def swapWordAt (m : Memory) (a n j : Nat) : Word :=
  if 2 * j + 1 < n then
    swapWord (byteAt m (a + 4 * j)) (byteAt m (a + 4 * j + 1)) (byteAt m (a + 4 * j + 2)) (byteAt m (a + 4 * j + 3))
  else swapHalf (byteAt m (a + 4 * j)) (byteAt m (a + 4 * j + 1))

/-- `PTR` once `j` words of a burst of `n` pixels at `a` have been read. -/
def swapPtr (a n j : Nat) : Word := BitVec.ofNat 32 (a + min (4 * j) (2 * n))

theorem swapPtr_of_word {a n j : Nat} (h : j < wordsFor n) : swapPtr a n j = BitVec.ofNat 32 (a + 4 * j) := by
  have hmin : min (4 * j) (2 * n) = 4 * j := by unfold wordsFor at h; omega
  rw [swapPtr, hmin]

theorem swapPtr_succ_sub {a n j k : Nat} (h : j < wordsFor n) (hk : min (4 * (j + 1)) (2 * n) = 4 * j + k) :
    swapPtr a n (j + 1) - swapPtr a n j = BitVec.ofNat 32 k := by
  rw [swapPtr_of_word h, swapPtr, hk, ← Nat.add_assoc, BitVec.ofNat_add _ k, BitVec.add_comm, BitVec.add_sub_cancel]

/-- A slot row of a whole word. -/
theorem loadRow_nextWord {u : State} {a n j limit : Nat} {p q : Phase} (h : readableRegion u.mem a (2 * n))
    (hj : 2 * j + 1 < n) (hptr : u.ptr = swapPtr a n j) :
    loadRow (nextWord u) 4 limit p q u =
      loadRow (some (swapWordAt u.mem a n j)) (swapPtr a n (j + 1) - swapPtr a n j) limit p q u := by
  have hword : j < wordsFor n := by unfold wordsFor; omega
  rw [nextWord_of_readable (readableRegion_sub h (by omega)) (hptr.trans (swapPtr_of_word hword)), swapWordAt,
    if_pos hj, swapPtr_succ_sub (k := 4) hword (by omega)]
  rfl

/-- The slot row of an odd count's last pixel. -/
theorem loadRow_nextHalf {u : State} {a n j limit : Nat} {p q : Phase} (h : readableRegion u.mem a (2 * n))
    (hj : n = 2 * j + 1) (hptr : u.ptr = swapPtr a n j) :
    loadRow (nextHalf u) 2 limit p q u =
      loadRow (some (swapWordAt u.mem a n j)) (swapPtr a n (j + 1) - swapPtr a n j) limit p q u := by
  have hword : j < wordsFor n := by unfold wordsFor; omega
  rw [nextHalf_of_readable (readableRegion_sub h (by omega)) (hptr.trans (swapPtr_of_word hword)), swapWordAt,
    if_neg (by omega), swapPtr_succ_sub (k := 2) hword (by omega)]
  rfl

/-- The lanes of the words are the pixels in their order, their bytes exchanged. -/
theorem wordPixel_swapWordAt (m : Memory) (a : Nat) {n k : Nat} (hk : k < n) :
    wordPixel (swapWordAt m a n) k = byteAt m (a + 2 * k) ++ byteAt m (a + 2 * k + 1) := by
  rcases Nat.mod_two_eq_zero_or_one k with hpar | hpar
  · have haddr : 4 * (k / 2) = 2 * k := by omega
    rw [wordPixel, if_pos hpar, swapWordAt, haddr, swapWord_eq_pack2, swapHalf_eq_pack2, apply_ite lane0, lane0_pack2,
      lane0_pack2, ite_self, bswap16_append]
  · have haddr : a + 4 * (k / 2) + 2 = a + 2 * k := by omega
    rw [wordPixel, if_neg (by omega), swapWordAt, if_pos (by omega), swapWord_eq_pack2, lane1_pack2, bswap16_append,
      haddr, ← haddr]

theorem payload_swapWordAt (x : Vector Word 16) (m : Memory) (a : Nat) {n : Nat} (hlo : 1 ≤ n) (hhi : n ≤ 32) :
    payload (burstLen n) (slotsAfter x (swapWordAt m a n) (wordsFor n)) = bytesBits (swappedBytes m a n) := by
  rw [payload_slotsAfter x _ hlo hhi, swappedBytes]
  refine congrArg bytesBits (List.flatMap_congr fun k hk => ?_)
  rw [wordPixel_swapWordAt m a (List.mem_range.1 hk), BitVec.extractLsb'_append_eq_right,
    BitVec.extractLsb'_append_eq_left]

/-! ### The bursts of WRPIXS -/

/-- A full burst, with `REM` at `r`. -/
def swapFullBurst (m : Memory) (a : Nat) (r : Word) : Burst where
  wait := .sAwait
  length := .sAlen
  slot := .sAslot
  start := .sAstart
  pixels := 32
  word := swapWordAt m a 32
  ptr := swapPtr a 32
  left := r - 32
  next := tierSelect (r - 32)

/-- The half burst. -/
def swapHalfBurst (m : Memory) (a : Nat) (r : Word) : Burst where
  wait := .sBwait
  length := .sBlen
  slot := .sBslot
  start := .sBstart
  pixels := 16
  word := swapWordAt m a 16
  ptr := swapPtr a 16
  left := r - 16
  next := if r - 16 ≠ 0 then .sCwait else .idle

/-- The tail. -/
def swapTailBurst (m : Memory) (a : Nat) (r : Word) : Burst where
  wait := .sCwait
  length := .sClen
  slot := .sCslot
  start := .sCstart
  pixels := r.toNat
  word := swapWordAt m a r.toNat
  ptr := swapPtr a r.toNat
  left := r
  next := .idle

/-- Every word of a burst of an even count is a whole one. -/
theorem word_is_whole {n j : Nat} (h : j < wordsFor n) (hn : n % 2 = 0) : 2 * j + 1 < n := by
  unfold wordsFor at h
  omega

/-- A START row that leaves `REM` writes to it what it holds. -/
theorem startRow_setRem_self (p : Phase) (s : State) :
    startRow (fun t => t.setPhase p) s = startRow (fun t => (t.setRem s.rem).setPhase p) s := by
  unfold startRow opStart
  split_ifs <;> rfl

theorem swapFullBurst_rowsOf {m : Memory} {a : Nat} (r : Word) (h : readableRegion m a (2 * 32)) :
    (swapFullBurst m a r).RowsOf m r where
  isWait := rfl
  active := by simp [swapFullBurst]
  pixels_pos := by simp [swapFullBurst]
  pixels_le := le_rfl
  waitRow u hp := by simp only [seqStep, hp, swapFullBurst]; rfl
  lenRow u hp _ := by simp only [seqStep, hp, swapFullBurst]; rfl
  loadRow u k hp hr hm hk hlt hptr := by
    subst hm
    simp only [seqStep, hp, swapFullBurst]
    exact loadRow_nextWord (limit := wordsFor 32) h (word_is_whole hlt rfl) hptr
  startRow u hp hr := by subst hr; simp only [seqStep, hp, swapFullBurst]; rfl

theorem swapHalfBurst_rowsOf {m : Memory} {a : Nat} (r : Word) (h : readableRegion m a (2 * 16)) :
    (swapHalfBurst m a r).RowsOf m r where
  isWait := rfl
  active := by simp [swapHalfBurst]
  pixels_pos := by simp [swapHalfBurst]
  pixels_le := by simp [swapHalfBurst]
  waitRow u hp := by simp only [seqStep, hp, swapHalfBurst]; rfl
  lenRow u hp _ := by simp only [seqStep, hp, swapHalfBurst]; rfl
  loadRow u k hp hr hm hk hlt hptr := by
    subst hm
    simp only [seqStep, hp, swapHalfBurst]
    exact loadRow_nextWord (limit := wordsFor 16) h (word_is_whole hlt rfl) hptr
  startRow u hp hr := by subst hr; simp only [seqStep, hp, swapHalfBurst]; rfl

theorem swapTailBurst_rowsOf {m : Memory} {a : Nat} {r : Word} (hlo : 1 ≤ r.toNat) (hhi : r.toNat ≤ 32)
    (h : readableRegion m a (2 * r.toNat)) : (swapTailBurst m a r).RowsOf m r where
  isWait := rfl
  active := by simp [swapTailBurst]
  pixels_pos := hlo
  pixels_le := hhi
  waitRow u hp := by simp only [seqStep, hp, swapTailBurst]; rfl
  lenRow u hp hr := by
    subst hr
    simp only [seqStep, hp, swapTailBurst, swapClen, lenVal_eq_burstLen hlo hhi]
  loadRow u k hp hr hm hk hlt hptr := by
    subst hm hr hk
    simp only [seqStep, hp, swapTailBurst, swapCslot]
    cases hlast : lastOdd u with
    | true =>
      obtain ⟨hlast, hodd⟩ := lastOdd_iff.1 hlast
      exact loadRow_nextHalf h (by unfold wordsFor at hlast; omega) hptr
    | false =>
      rw [← Bool.not_eq_true, lastOdd_iff] at hlast
      have hlt : u.idx.toNat < wordsFor u.rem.toNat := hlt
      exact loadRow_nextWord h (by unfold wordsFor at hlast hlt; omega) hptr
  startRow u hp hr := by
    subst hr
    simp only [seqStep, hp, swapTailBurst]
    exact startRow_setRem_self .idle u

/-! ### The tiers -/

theorem swapPtr_zero (a n : Nat) : swapPtr a n 0 = BitVec.ofNat 32 a := by
  rw [swapPtr, Nat.mul_zero, Nat.zero_min, Nat.add_zero]

/-- After the words of a burst `PTR` stands after its pixels. -/
theorem swapPtr_words (a n : Nat) : swapPtr a n (wordsFor n) = BitVec.ofNat 32 (a + 2 * n) := by
  have hmin : min (4 * wordsFor n) (2 * n) = 2 * n := by unfold wordsFor; omega
  rw [swapPtr, hmin]

theorem tierSelect_full {r : Word} (h : 32 ≤ r.toNat) : tierSelect r = .sAwait := if_pos h

theorem tierSelect_half {r : Word} (hlo : 16 ≤ r.toNat) (hhi : r.toNat < 32) : tierSelect r = .sBwait := by
  rw [tierSelect, if_neg (by omega), if_pos hlo]

/-- Below the half burst's count the tier is the tail or none. -/
theorem tierSelect_tail {r : Word} (h : r.toNat < 16) : tierSelect r = if r ≠ 0 then .sCwait else .idle := by
  rw [tierSelect, if_neg (by omega), if_neg (by omega), ite_not]

/-- WRPIXS has `n` pixels left to send, which stand at `a`, and is about to select a tier. -/
structure SwapLeft (m : Memory) (a n : Nat) (s : State) : Prop where
  silent : hostSilent s
  mem : s.mem = m
  phase : s.phase = tierSelect s.rem
  rem : s.rem.toNat = n
  ptr : s.ptr = BitVec.ofNat 32 a
  region : readableRegion m a (2 * n)

/-- A burst puts the pixels it has read on the bus, swapped (R168). -/
theorem Burst.RowsOf.swappedBytes {b : Burst} {m : Memory} {r : Word} {a : Nat} {s t : State} (hrows : b.RowsOf m r)
    (hword : b.word = swapWordAt m a b.pixels) (h : b.Sent s t) :
    sentSoFar t = sentSoFar s ++ bytesBits (swappedBytes m a b.pixels) := by
  rw [h.sent, hword, payload_swapWordAt _ _ _ hrows.pixels_pos hrows.pixels_le]

/-- After a burst of some of the pixels left, with `REM` counting them as sent, the others are left. -/
theorem SwapLeft.after_burst {m : Memory} {a n : Nat} {s t : State} {b : Burst} {lens : List Len}
    (hs : SwapLeft m a n s) (hrun : RunsTo s t lens) (hsent : b.Sent s t) (hn : b.pixels ≤ n) (hle : b.pixels ≤ 32)
    (hptr : b.ptr = swapPtr a b.pixels) (hleft : b.left = s.rem - BitVec.ofNat 32 b.pixels)
    (hnext : b.next = tierSelect b.left) : SwapLeft m (a + 2 * b.pixels) (n - b.pixels) t := by
  obtain ⟨hsilent, rfl, -, rfl, -, hregion⟩ := hs
  have hu := hrun.undisturbed hsilent.1
  have hrem : t.rem.toNat = s.rem.toNat - b.pixels := by
    rw [hsent.rem, hleft, BitVec.toNat_sub, BitVec.toNat_ofNat]
    omega
  refine ⟨hu.hostSilent hsilent, hu.mem, ?_, hrem, ?_, readableRegion_sub hregion (by omega)⟩
  · rw [hsent.phase, hsent.rem, hnext]
  · rw [hsent.ptr, hptr, swapPtr_words]

theorem SwapLeft.exists_run_full {m : Memory} {a n : Nat} {s : State} (hs : SwapLeft m a n s) (hn : 32 ≤ n) :
    ∃ t, RunsTo s t [burstLen 32] ∧ (swapFullBurst m a s.rem).Sent s t ∧ SwapLeft m (a + 2 * 32) (n - 32) t ∧
      sentSoFar t = sentSoFar s ++ bytesBits (swappedBytes m a 32) := by
  have hphase := hs.phase.trans (tierSelect_full (hs.rem.symm ▸ hn))
  have hrows := swapFullBurst_rowsOf s.rem (readableRegion_of_le hs.region (by omega))
  obtain ⟨t, hrun, hsent⟩ := hrows.exists_run hs.silent hs.mem hphase (hs.ptr.trans (swapPtr_zero ..).symm)
  exact ⟨t, hrun, hsent, hs.after_burst hrun hsent hn hrows.pixels_le rfl rfl rfl, hrows.swappedBytes rfl hsent⟩

theorem SwapLeft.exists_run_half {m : Memory} {a n : Nat} {s : State} (hs : SwapLeft m a n s) (hlo : 16 ≤ n)
    (hhi : n < 32) :
    ∃ t, RunsTo s t [burstLen 16] ∧ (swapHalfBurst m a s.rem).Sent s t ∧ SwapLeft m (a + 2 * 16) (n - 16) t ∧
      sentSoFar t = sentSoFar s ++ bytesBits (swappedBytes m a 16) := by
  have hrem := hs.rem
  have hphase := hs.phase.trans (tierSelect_half (by omega) (by omega))
  have hrows := swapHalfBurst_rowsOf s.rem (readableRegion_of_le hs.region (by omega))
  obtain ⟨t, hrun, hsent⟩ := hrows.exists_run hs.silent hs.mem hphase (hs.ptr.trans (swapPtr_zero ..).symm)
  have hleft : (s.rem - 16).toNat < 16 := by
    simp only [BitVec.toNat_sub, BitVec.reduceToNat]
    omega
  exact ⟨t, hrun, hsent, hs.after_burst hrun hsent hlo hrows.pixels_le rfl rfl (tierSelect_tail hleft).symm,
    hrows.swappedBytes rfl hsent⟩

theorem SwapLeft.exists_run_tail {m : Memory} {a n : Nat} {s : State} (hs : SwapLeft m a n s) (hlo : 1 ≤ n)
    (hhi : n < 16) :
    ∃ t, RunsTo s t [burstLen n] ∧ (swapTailBurst m a s.rem).Sent s t ∧
      sentSoFar t = sentSoFar s ++ bytesBits (swappedBytes m a n) := by
  obtain ⟨hsilent, rfl, hphase, rfl, hat, hregion⟩ := hs
  have hzero : s.rem ≠ 0 := fun h => by simp [h] at hlo
  rw [tierSelect_tail hhi, if_pos hzero] at hphase
  have hrows := swapTailBurst_rowsOf hlo (by omega) hregion
  obtain ⟨t, hrun, hsent⟩ := hrows.exists_run hsilent rfl hphase (hat.trans (swapPtr_zero ..).symm)
  exact ⟨t, hrun, hsent, hrows.swappedBytes rfl hsent⟩

/-! ### The whole command -/

theorem bytesBits_append (l l' : List Byte) : bytesBits (l ++ l') = bytesBits l ++ bytesBits l' :=
  List.flatMap_append

theorem swappedBytes_add (m : Memory) (a k n : Nat) :
    swappedBytes m a (k + n) = swappedBytes m a k ++ swappedBytes m (a + 2 * k) n := by
  rw [swappedBytes, List.range_add, List.flatMap_append, List.flatMap_map]
  simp only [Nat.mul_add, ← Nat.add_assoc]
  rfl

theorem swapBursts_full {n : Nat} (h : 32 ≤ n) : swapBursts n = burstLen 32 :: swapBursts (n - 32) := by
  have hwindows : n / 32 = (n - 32) / 32 + 1 := by omega
  have hrem : n % 32 = (n - 32) % 32 ∧ n % 16 = (n - 32) % 16 := by omega
  rw [swapBursts, hwindows, List.replicate_succ, hrem.1, hrem.2]
  rfl

theorem swapBursts_half {n : Nat} (hlo : 16 ≤ n) (hhi : n < 32) :
    swapBursts n = burstLen 16 :: swapBursts (n - 16) := by
  have hwindows : n / 32 = 0 ∧ (n - 16) / 32 = 0 := by omega
  have hhalf : 16 ≤ n % 32 ∧ ¬ 16 ≤ (n - 16) % 32 := by omega
  have hrem : n % 16 = (n - 16) % 16 := by omega
  rw [swapBursts, swapBursts, hwindows.1, hwindows.2, if_pos hhalf.1, if_neg hhalf.2, hrem]
  rfl

theorem swapBursts_tail {n : Nat} (hlo : 1 ≤ n) (hhi : n < 16) : swapBursts n = [burstLen n] := by
  have hwindows : n / 32 = 0 := by omega
  have hrem : n % 16 = n := by omega
  rw [swapBursts, hwindows, if_neg (by omega), hrem, if_neg (by omega)]
  rfl

/-- With 16 pixels or more left the next burst is a full or a half one. -/
theorem SwapLeft.exists_run_first {m : Memory} {a n : Nat} {s : State} (hs : SwapLeft m a n s) (hn : 16 ≤ n) :
    ∃ k t, 0 < k ∧ k ≤ n ∧ swapBursts n = burstLen k :: swapBursts (n - k) ∧ RunsTo s t [burstLen k] ∧
      SwapLeft m (a + 2 * k) (n - k) t ∧ sentSoFar t = sentSoFar s ++ bytesBits (swappedBytes m a k) := by
  rcases lt_or_ge n 32 with hhalf | hfull
  · obtain ⟨t, hrun, -, hleft, hsent⟩ := hs.exists_run_half hn hhalf
    exact ⟨16, t, by decide, hn, swapBursts_half hn hhalf, hrun, hleft, hsent⟩
  · obtain ⟨t, hrun, -, hleft, hsent⟩ := hs.exists_run_full hfull
    exact ⟨32, t, by decide, hfull, swapBursts_full hfull, hrun, hleft, hsent⟩

/-- After the last START the burst in flight is sent and the machine is quiet. -/
theorem exists_run_rest {s : State} (hs : hostSilent s) (hp : s.phase = .idle) :
    ∃ t, RunsTo s t [] ∧ quiet t ∧ t.tx = sentSoFar s := by
  obtain ⟨t, ⟨-, hsent⟩, hquiet, hrun⟩ := exists_run_quiet hs hp
  exact ⟨t, hrun, hquiet, (sentSoFar_of_idle hquiet.2.1).symm.trans hsent⟩

/-- The pixels left go on the bus swapped, by induction on their number (R165, R168). -/
theorem SwapLeft.exists_run {m : Memory} {a n : Nat} {s : State} (hs : SwapLeft m a n s) :
    ∃ t, RunsTo s t (swapBursts n) ∧ quiet t ∧ t.tx = sentSoFar s ++ bytesBits (swappedBytes m a n) := by
  induction n using Nat.strong_induction_on generalizing a s with
  | _ n ih =>
    obtain rfl | ⟨hlo, htail⟩ | hfirst : n = 0 ∨ (1 ≤ n ∧ n < 16) ∨ 16 ≤ n := by omega
    · have hzero : s.rem = 0 := BitVec.eq_of_toNat_eq hs.rem
      have hp : s.phase = .idle := by rw [hs.phase, hzero]; rfl
      simpa [swapBursts, swappedBytes, bytesBits] using exists_run_rest hs.silent hp
    · obtain ⟨u, hrun, hu, hsent⟩ := hs.exists_run_tail hlo htail
      have hsilent := (hrun.undisturbed hs.silent.1).hostSilent hs.silent
      obtain ⟨t, hrun', hquiet, htx⟩ := exists_run_rest hsilent hu.phase
      exact ⟨t, swapBursts_tail hlo htail ▸ hrun.trans hrun', hquiet, htx.trans hsent⟩
    · obtain ⟨k, u, hk, hkn, hbursts, hrun, hleft, hsent⟩ := hs.exists_run_first hfirst
      obtain ⟨t, hrun', hquiet, htx⟩ := ih (n - k) (by omega) hleft
      have hbytes := swappedBytes_add m a k (n - k)
      rw [Nat.add_sub_cancel' hkn] at hbytes
      refine ⟨t, hbursts ▸ hrun.trans hrun', hquiet, ?_⟩
      rw [htx, hsent, hbytes, bytesBits_append, List.append_assoc]

/-- ISSUE of a WRPIXS inside the contract latches it (R175). -/
theorem exec_wrpixs {src n : Word} {u : State} (hu : standing u) (hw : (Instr.wrpixs src n).WellFormed) :
    exec (.wrpixs src n) u = .next (u.latch (commandDesc (.wrpixs src n)) .sEntry) := by
  obtain ⟨hp, hs⟩ := hu
  change execWrpixs src n u = _
  rw [execWrpixs, onSerial_serial _ hs, if_neg (not_not.2 hp), if_pos hw]
  exact opIssue_eq_next.2 ⟨hp, rfl⟩

/-- From its ISSUE to the first tier WRPIXS writes its own registers only; a burst in flight may complete. -/
theorem exists_run_swapLeft {s : State} {src n : Word} (hs : standing s) (hw : (Instr.wrpixs src n).WellFormed)
    (hread : readable s.mem src.toNat (2 * n.toNat) = true) :
    ∃ t, RunsTo (asking s (encode (.wrpixs src n))) t [] ∧ SwapLeft s.mem src.toNat n.toNat t ∧
      sentSoFar t = sentSoFar s ∧ t.len = s.len ∧ t.slots = s.slots ∧ t.result = s.result := by
  have hfits := region_le_of_wellFormed (i := .wrpixs src n) src.isLt hw
  obtain ⟨u, ⟨hu, hsent⟩, hrun⟩ := exists_run_issue hs (decodeEncodeRoundTrip _) fun _ hu => exec_wrpixs hu hw
  have hserial : u.params.busMode = .serial := by rw [hu]; exact hs.2
  obtain ⟨v, ⟨hv, hsent'⟩, -, hrun'⟩ :=
    exists_seqStep (s := (u.setHost []).latch (commandDesc (.wrpixs src n)) .sEntry) ⟨rfl, hserial⟩ (by simp)
  have hcount : descCount v.desc = n := by rw [hv]; exact descCount_encodeDesc ..
  have hsrc : descSrc v.desc = src := by rw [hv]; exact descSrc_encodeDesc ..
  have hentry : seqStep v = .next ((((v.setRem n).setPtr src).setIdx 0).setPhase (tierSelect n)) := by
    have hphase : v.phase = .sEntry := by rw [hv]; rfl
    simp only [seqStep, hphase, swapEntry, hcount, hsrc]
  have hrun'' := hrun' _ hentry
  rw [startedBy_of_busy_eq (by rfl)] at hrun''
  refine ⟨_, hrun.trans hrun'', ⟨?_, ?_, rfl, rfl, ?_, hread, hfits⟩, hsent'.trans hsent, ?_, ?_, ?_⟩
  · rw [hv]; exact ⟨rfl, hserial⟩
  · rw [hv, hu]; rfl
  · simp
  all_goals rw [hv, hu]; rfl

/-- WRPIXS runs to a quiet state and sends its pixels swapped (R165, R168). -/
theorem exists_run_wrpixs {s : State} {src n : Word} (hs : standing s) (hw : (Instr.wrpixs src n).WellFormed)
    (hread : readable s.mem src.toNat (2 * n.toNat) = true) :
    ∃ t, RunsTo (asking s (encode (.wrpixs src n))) t (swapBursts n.toNat) ∧ quiet t ∧
      t.tx = sentSoFar s ++ bytesBits (swappedBytes s.mem src.toNat n.toNat) := by
  obtain ⟨u, hrun, hleft, hsent, -⟩ := exists_run_swapLeft hs hw hread
  obtain ⟨t, hrun', hquiet, htx⟩ := hleft.exists_run
  exact ⟨t, hrun.trans hrun', hquiet, hsent ▸ htx⟩

/-! ### Swapping twice -/

/-- Each two bytes of a list exchanged; a last byte without another is dropped. -/
def swapPairs : List Byte → List Byte
  | x :: y :: l => y :: x :: swapPairs l
  | _ => []

theorem swapPairs_flatMap (f g : Nat → Byte) (l : List Nat) :
    swapPairs (l.flatMap fun k => [f k, g k]) = l.flatMap fun k => [g k, f k] := by
  induction l with
  | nil => rfl
  | cons k l ih => exact congrArg (fun rest => g k :: f k :: rest) ih

theorem bytesAt_eq_pairs (m : Memory) (a n : Nat) :
    bytesAt m a (2 * n) = (List.range n).flatMap fun k => [byteAt m (a + 2 * k), byteAt m (a + 2 * k + 1)] :=
  map_range_mul (fun k => byteAt m (a + k)) 2 n

/-- What WRPIXS sends is the buffer with the bytes of each pixel exchanged. -/
theorem swappedBytes_eq_swapPairs (m : Memory) (a n : Nat) :
    swappedBytes m a n = swapPairs (bytesAt m a (2 * n)) := by
  rw [bytesAt_eq_pairs, swapPairs_flatMap, swappedBytes]

/-- R116 on a buffer: the bytes sent, once stored, are sent as the first buffer's. -/
theorem swappedBytes_of_bytesAt_eq {m m' : Memory} {a a' n : Nat} (h : bytesAt m' a' (2 * n) = swappedBytes m a n) :
    swappedBytes m' a' n = bytesAt m a (2 * n) := by
  rw [swappedBytes_eq_swapPairs, h, swappedBytes, swapPairs_flatMap, bytesAt_eq_pairs]

/-- Settles O59: each run sends its buffer swapped, and swapping twice is the identity. -/
theorem swappedTwiceIsTheBuffer : Obligations.SwappedTwiceIsTheBuffer := by
  intro s s' src src' n hs hs' hw hw' hread hread'
  obtain ⟨t, hrun, hquiet, htx⟩ := exists_run_wrpixs hs hw hread
  obtain ⟨k, hlog⟩ := hrun.exists_runLog
  refine ⟨k, t, _, _, hlog, hquiet, htx, fun hbytes => ?_⟩
  obtain ⟨t', hrun', hquiet', htx'⟩ := exists_run_wrpixs hs' hw' hread'
  obtain ⟨k', hlog'⟩ := hrun'.exists_runLog
  exact ⟨k', t', _, hlog', hquiet', swappedBytes_of_bytesAt_eq hbytes ▸ htx'⟩

end Sys2Proof.Machine
end

section
/-! PROOFS. Commands at their ISSUE and in their entry step (spec/42_solid_fill_scheduler.md R125, R126;
43_pixel_stream_writer.md R145, R146; 44_byte_swap_adapter.md R160, R161; 45_host_command_port.md R175). -/

namespace Sys2Proof.Machine

/-! ### ISSUE -/

/-- ISSUE of a FILL latches it (R125). -/
theorem exec_fill {c : Pixel} {n : Word} {u : State} (hu : standing u) :
    exec (.fill c n) u = .next (u.latch (commandDesc (.fill c n)) .fEntry) :=
  (onSerial_serial _ hu.2).trans (opIssue_eq_next.2 ⟨hu.1, rfl⟩)

/-- ISSUE of a WRPIX inside the contract latches it (R145). -/
theorem exec_wrpix {src n : Word} {u : State} (hu : standing u) (ha : alignedFor u.params src n = true)
    (hw : (Instr.wrpix src n).WellFormed) :
    exec (.wrpix src n) u = .next (u.latch (commandDesc (.wrpix src n)) .wEntry) := by
  obtain ⟨hp, hs⟩ := hu
  change execWrpix src n u = _
  rw [execWrpix, onSerial_serial _ hs, if_neg (not_not.2 hp), if_neg (by simp [ha]), if_pos hw]
  exact opIssue_eq_next.2 ⟨hp, rfl⟩

/-- Settles O31: each command is past the checks of its ISSUE, and is latched. -/
theorem commandsAreIssued : Obligations.CommandsAreIssued := by
  intro s hs hp
  refine ⟨fun c n => exec_fill ⟨hp, hs⟩, fun src n halign hfits => ?_, fun src n hfits => ?_⟩
  · have ha : alignedFor s.params src n = true := alignedFor_iff.2 fun hfour => halign.imp_right fun h => h hfour
    exact exec_wrpix ⟨hp, hs⟩ ha (hfits.imp_left fun hzero => by rw [hzero]; rfl)
  · exact exec_wrpixs ⟨hp, hs⟩ (hfits.imp_left fun hzero => by rw [hzero]; rfl)

/-! ### The entry step -/

/-- The entry step of each command with `COUNT = 0` goes to IDLE. -/
theorem seqStep_entry_of_count_zero {s : State} (he : s.phase.isEntry = true) (hc : descCount s.desc = 0) :
    ∃ rem full ptr fw, seqStep s =
      .next ((((((s.setRem rem).setFull full).setPtr ptr).setIdx 0).setFw fw).setPhase .idle) := by
  unfold seqStep
  cases hp : s.phase <;> simp [hp, Phase.isEntry] at he
  case fEntry =>
    refine ⟨splitRem 0, splitFull 0, s.ptr, fillWord (descColor s.desc), ?_⟩
    simp only [fillEntry, hc, if_true]
    rfl
  case wEntry =>
    refine ⟨0, s.full, descSrc s.desc, s.fw, ?_⟩
    simp only [streamEntry, hc]
    rfl
  case sEntry =>
    refine ⟨0, s.full, descSrc s.desc, s.fw, ?_⟩
    simp only [swapEntry, hc]
    rfl

/-- Settles O34: the entry step writes working registers and `pc` only, and `pc <- IDLE`. -/
theorem countZeroCompletesAtOnce : Obligations.CountZeroCompletesAtOnce := by
  intro s he hc
  obtain ⟨rem, full, ptr, fw, hstep⟩ := seqStep_entry_of_count_zero he hc
  exact ⟨_, hstep, rfl, rfl⟩

end Sys2Proof.Machine
end

section
/-! PROOFS. What FILL sends and leaves (spec/42_solid_fill_scheduler.md R131 to R134): its remainder, the slots the
remainder has left, its full windows, and the whole command from its ISSUE to the quiet state after it. -/

namespace Sys2Proof.Machine

/-! ### The bytes of a burst -/

@[simp] theorem fillBytes_zero (c : Pixel) : fillBytes c 0 = [] := rfl

theorem fillBytes_add (c : Pixel) (k n : Nat) : fillBytes c (k + n) = fillBytes c k ++ fillBytes c n := by
  rw [fillBytes, List.replicate_add, List.flatten_append]
  rfl

/-- Every pixel of FILLWORDs goes on the bus as the colour, high byte first (R112, R133). -/
theorem payload_fillWord (x : Vector Word 16) (c : Pixel) {n : Nat} (hlo : 1 ≤ n) (hhi : n ≤ 32) :
    payload (burstLen n) (slotsAfter x (fun _ => fillWord c) (wordsFor n)) = bytesBits (fillBytes c n) := by
  have hpixel (k : Nat) : wordPixel (fun _ => fillWord c) k = c.extractLsb' 0 8 ++ c.extractLsb' 8 8 := by
    rw [wordPixel, fillWord, lane0_pack2, lane1_pack2, ite_self, bswap16]
  rw [payload_slotsAfter x _ hlo hhi]
  simp only [hpixel, BitVec.extractLsb'_append_eq_right, BitVec.extractLsb'_append_eq_left]
  rw [fillBytes, List.flatMap_def, List.map_const', List.length_range]
  rfl

/-! ### FILL on its way -/

/-- FILL has written FILLWORD to the first `k` slots, which were `x`, and `IDX` counts them; `REM` is `r`, `FULL` is
`f`, and the bus has, or is about to have, `sent`. -/
structure Filling (c : Pixel) (x : Vector Word 16) (r f : Word) (sent : List Bool) (k : Nat) (s : State) : Prop where
  silent : hostSilent s
  word : s.fw = fillWord c
  rem : s.rem = r
  full : s.full = f
  idx : s.idx.toNat = k
  slots : s.slots = slotsAfter x (fun _ => fillWord c) k
  held : slotsHeld s k = true
  sent : sentSoFar s = sent

section
variable {c : Pixel} {x : Vector Word 16} {r f : Word} {sent : List Bool} {k : Nat} {s : State}

theorem Filling.setPhase (h : Filling c x r f sent k s) (p : Phase) : Filling c x r f sent k (s.setPhase p) :=
  ⟨h.silent, h.word, h.rem, h.full, h.idx, h.slots, h.held, h.sent⟩

theorem Filling.writeLen (h : Filling c x r f sent k s) (v : Len) : Filling c x r f sent k (s.writeLen v) :=
  ⟨h.silent, h.word, h.rem, h.full, h.idx, h.slots, h.held, h.sent⟩

theorem Filling.busMoved {u : State} (h : Filling c x r f sent k s) (hu : BusMoved s u) :
    Filling c x r f sent k u := by
  obtain ⟨hu, hsent⟩ := hu
  refine ⟨?_, ?_, ?_, ?_, ?_, ?_, ?_, hsent.trans h.sent⟩
  all_goals rw [hu]
  exacts [h.silent, h.word, h.rem, h.full, h.idx, h.slots, h.held]

/-! ### The kinds of row -/

/-- A WAITIDLE row. -/
theorem Filling.exists_run_wait {p : Phase} (h : Filling c x r f sent k s) (hw : s.phase.isWait = true)
    (hrow : ∀ u, u.phase = s.phase → u.idx = s.idx → seqStep u = waitRow p u) :
    ∃ t, RunsTo s t [] ∧ Filling c x r f sent k t ∧ t.phase = p ∧ t.busy = false := by
  obtain ⟨u, hu, hb, hrun⟩ := Machine.exists_run_wait h.silent hw fun u ⟨hu, _⟩ => hrow u (by rw [hu]) (by rw [hu])
  exact ⟨_, hrun, (h.busMoved hu).setPhase p, rfl, hb⟩

/-- A WAITIDLE row and the SETLEN row after it. -/
theorem Filling.exists_run_length {p q : Phase} {v : Len} (h : Filling c x r f sent k s) (hw : s.phase.isWait = true)
    (hwait : ∀ u, u.phase = s.phase → seqStep u = waitRow p u) (hp : p ≠ .idle)
    (hlen : ∀ u, u.phase = p → u.rem = r → seqStep u = lenRow v q u) :
    ∃ t, RunsTo s t [] ∧ Filling c x r f sent k t ∧ t.phase = q ∧ t.busy = false ∧ t.lenWritten = true ∧
      t.len = v := by
  obtain ⟨u, hrun, hu, hphase, hb⟩ := h.exists_run_wait hw fun u hu _ => hwait u hu
  have hstep := (hlen u hphase hu.rem).trans (lenRow_eq_next.2 ⟨hb, rfl⟩)
  have hrun' := runsTo_of_seqStep hu.silent (hphase ▸ hp) hb hstep
  rw [startedBy_of_busy_eq (by rfl)] at hrun'
  exact ⟨_, hrun.trans hrun', (hu.writeLen v).setPhase q, rfl, hb, rfl, rfl⟩

/-- A slot row writes one slot more. -/
theorem Filling.slot_written (h : Filling c x r f sent k s) (hk : k < 16) (limit : Nat) (p q : Phase) :
    Filling c x r f sent (k + 1) (afterSlot s limit p q (fillWord c)) := by
  have hi : s.idx.toNat < 16 := h.idx.symm ▸ hk
  have hset : (s.idx.setWidth 4).toNat = k := (toNat_setWidth_idx hi).trans h.idx
  refine ⟨h.silent, h.word, h.rem, h.full, ?_, ?_, ?_, h.sent⟩
  · rw [afterSlot_idx hi, h.idx]
  · simp only [afterSlot, State.setPhase_slots, State.setIdx_slots, State.writeSlot_slots, hset, h.slots]
    exact slotsAfter_succ x (fun _ => fillWord c) hk
  · exact h.idx ▸ slotsHeld_afterSlot hi (h.idx.symm ▸ h.held) limit p q _

/-- One slot row: it stays, or goes on with the slots up to the limit written. -/
theorem Filling.exists_run_slot {p q : Phase} {limit : Nat} (h : Filling c x r f sent k s) (hp : s.phase ≠ .idle)
    (hrow : seqStep s = slotRow s.fw limit p q s) (hb : s.busy = false) (hk : k < limit) (hlimit : limit ≤ 16) :
    ∃ t, RunsTo s t [] ∧ Filling c x r f sent (k + 1) t ∧
      ((t.phase = p ∧ k + 1 < limit) ∨ (t.phase = q ∧ k + 1 = limit)) ∧
      t.busy = false ∧ t.lenWritten = s.lenWritten ∧ t.len = s.len := by
  have hi : s.idx.toNat < limit := h.idx.symm ▸ hk
  have hstep : seqStep s = .next (afterSlot s limit p q (fillWord c)) :=
    (hrow.trans (h.word ▸ rfl)).trans (slotRow_eq_next.2 ⟨by omega, hb, rfl⟩)
  have hrun := runsTo_of_seqStep h.silent hp hb hstep
  rw [startedBy_of_busy_eq (by rfl)] at hrun
  exact ⟨_, hrun, h.slot_written (by omega) limit p q, h.idx ▸ afterSlot_phase hi hlimit p q _, hb, rfl, rfl⟩

/-- The slot rows up to the limit, by induction on their number. -/
theorem Filling.exists_run_slots {p q : Phase} {limit n : Nat} (h : Filling c x r f sent k s) (hp : s.phase = p)
    (hactive : p ≠ .idle) (hrow : ∀ u, u.phase = p → u.rem = r → seqStep u = slotRow u.fw limit p q u)
    (hb : s.busy = false) (hk : k < limit) (hn : limit = k + n) (hlimit : limit ≤ 16) :
    ∃ t, RunsTo s t [] ∧ Filling c x r f sent limit t ∧ t.phase = q ∧ t.busy = false ∧
      t.lenWritten = s.lenWritten ∧ t.len = s.len := by
  induction n generalizing k s with
  | zero => omega
  | succ n ih =>
    obtain ⟨u, hrun, hu, hgoes, hb, hwritten, hlen⟩ :=
      h.exists_run_slot (hp ▸ hactive) (hrow s hp h.rem) hb hk hlimit
    obtain ⟨hp, hlt⟩ | ⟨hq, hlast⟩ := hgoes
    · obtain ⟨t, hrun', ht, hq, hb, hwritten', hlen'⟩ := ih hu hp hb hlt (by omega)
      exact ⟨t, hrun.trans hrun', ht, hq, hb, hwritten'.trans hwritten, hlen'.trans hlen⟩
    · exact ⟨u, hrun, hlast ▸ hu, hq, hb, hwritten, hlen⟩

/-- A START row of a burst of `m` pixels. -/
theorem Filling.exists_run_start {m : Nat} {g : Word} {p : Phase} (h : Filling c x r f sent (wordsFor m) s)
    (hp : s.phase ≠ .idle) (hrow : seqStep s = startRow (fun t => (t.setFull g).setPhase p) s) (hb : s.busy = false)
    (hwritten : s.lenWritten = true) (hlen : s.len = burstLen m) (hlo : 1 ≤ m) (hhi : m ≤ 32) :
    ∃ t, RunsTo s t [burstLen m] ∧ Filling c x r g (sent ++ bytesBits (fillBytes c m)) (wordsFor m) t ∧
      t.phase = p ∧ t.len = burstLen m := by
  have hcovers : s.len.toNat / 32 + 1 = wordsFor m := hlen ▸ burstLen_covers hlo hhi
  have hst : startable s = true := startable_iff.2 ⟨hwritten, hcovers.symm ▸ h.held⟩
  have hrun := runsTo_of_seqStep h.silent hp hb (hrow.trans (startRow_eq_next.2 ⟨hb, hst, rfl⟩))
  rw [startedBy_of_start hb rfl, State.setPhase_len, State.setFull_len, State.beginBurst_len, hlen] at hrun
  refine ⟨_, hrun, ⟨h.silent, h.word, h.rem, rfl, h.idx, h.slots, h.held, ?_⟩, rfl, hlen⟩
  change sentSoFar s.beginBurst = _
  rw [sentSoFar_beginBurst hb, h.sent, hlen, h.slots, payload_fillWord x c hlo hhi]

/-! ### The remainder and the full windows -/

/-- A START row's further action counts only where its burst has begun. -/
theorem startRow_congr {g g' : State → State} {s : State} (h : g s.beginBurst = g' s.beginBurst) :
    startRow g s = startRow g' s := by
  unfold startRow opStart
  split_ifs
  · rfl
  · rw [mapNext_next, mapNext_next, h]
  · rfl

/-- The remainder's burst: rows `F_RWAIT` to `F_RSTART`. -/
theorem Filling.exists_run_remainder_burst (h : Filling c x r f sent 0 s) (hp : s.phase = .fRwait) (hlo : 1 ≤ r.toNat)
    (hhi : r.toNat ≤ 32) :
    ∃ t, RunsTo s t [burstLen r.toNat] ∧
      Filling c x r f (sent ++ bytesBits (fillBytes c r.toNat)) (wordsFor r.toNat) t ∧
      t.phase = (if f = 0 then .idle else .fPwait) ∧ t.len = burstLen r.toNat := by
  have hwords : 0 < wordsFor r.toNat := by unfold wordsFor; omega
  obtain ⟨t, hrun, ht, hphase, hb, hwritten, hlen⟩ := h.exists_run_length (p := .fRlen) (q := .fRslot)
    (v := burstLen r.toNat) (hp ▸ rfl) (fun u hu => by simp only [seqStep, hu.trans hp]; rfl) (by decide)
    fun u hu hr => by subst hr; simp only [seqStep, hu, fillRlen, lenVal_eq_burstLen hlo hhi]
  obtain ⟨u, hrun', hu, hphase, hb, hwritten', hlen'⟩ := ht.exists_run_slots (q := .fRstart) hphase (by decide)
    (fun u hu hr => by subst hr; simp only [seqStep, hu]; rfl) hb hwords (Nat.zero_add _).symm
    (wordsFor_le_slotCount hhi)
  have hrow : seqStep u = startRow (fun t => (t.setFull f).setPhase (if f = 0 then .idle else .fPwait)) u := by
    obtain rfl := hu.full
    simp only [seqStep, hphase]
    exact startRow_congr rfl
  obtain ⟨v, hrun'', hv⟩ := hu.exists_run_start (by rw [hphase]; decide) hrow hb (hwritten'.trans hwritten)
    (hlen'.trans hlen) hlo hhi
  exact ⟨v, (hrun.trans hrun').trans hrun'', hv⟩

/-- The slots the remainder's burst has left: rows `F_PWAIT` and `F_PSLOT`. -/
theorem Filling.exists_run_padding (h : Filling c x r f sent k s) (hp : s.phase = .fPwait) (hk : k ≤ 16) :
    ∃ t, RunsTo s t [] ∧ Filling c x r f sent 16 t ∧ t.phase = .fLwait := by
  obtain ⟨t, hrun, ht, hphase, hb⟩ := h.exists_run_wait (p := if k < 16 then .fPslot else .fLwait) (hp ▸ rfl)
    fun u hu hi => by
      obtain rfl := h.idx
      simp only [seqStep, hu.trans hp, fillPwait, hi]
  obtain rfl | hlt := hk.eq_or_lt
  · exact ⟨t, hrun, ht, hphase⟩
  · rw [if_pos hlt] at hphase
    obtain ⟨u, hrun', hu, hphase, -⟩ := ht.exists_run_slots (q := .fLwait) (n := 16 - k) hphase (by decide)
      (fun u hu _ => by simp only [seqStep, hu]; rfl) hb hlt (by omega) le_rfl
    exact ⟨u, hrun.trans hrun', hu, hphase⟩

/-- One full window: rows `F_LWAIT` to `F_LSTART`. -/
theorem Filling.exists_run_window (h : Filling c x r f sent 16 s) (hp : s.phase = .fLwait) :
    ∃ t, RunsTo s t [511] ∧ Filling c x r (f - 32) (sent ++ bytesBits (fillBytes c 32)) 16 t ∧
      t.phase = (if f - 32 ≠ 0 then .fLwait else .idle) ∧ t.len = 511 := by
  obtain ⟨t, hrun, ht, hphase, hb, hwritten, hlen⟩ := h.exists_run_length (p := .fLlen) (q := .fLstart)
    (v := Config.lenFull) (hp ▸ rfl) (fun u hu => by simp only [seqStep, hu.trans hp]; rfl) (by decide)
    fun u hu _ => by simp only [seqStep, hu]; rfl
  have hrow : seqStep t =
      startRow (fun u => (u.setFull (f - 32)).setPhase (if f - 32 ≠ 0 then .fLwait else .idle)) t := by
    obtain rfl := ht.full
    simp only [seqStep, hphase]
    rfl
  obtain ⟨u, hrun', hu⟩ := Filling.exists_run_start (m := 32) ht (by rw [hphase]; decide) hrow hb hwritten hlen
    (by decide) le_rfl
  exact ⟨u, hrun.trans hrun', hu⟩

/-- The full windows left, by induction on their number. -/
theorem Filling.exists_run_windows {w : Nat} (h : Filling c x r f sent 16 s)
    (hp : s.phase = if f ≠ 0 then .fLwait else .idle) (hf : f.toNat = 32 * w) :
    ∃ t, RunsTo s t (List.replicate w 511) ∧ Filling c x r 0 (sent ++ bytesBits (fillBytes c (32 * w))) 16 t ∧
      t.phase = .idle ∧ t.len = if w = 0 then s.len else 511 := by
  induction w generalizing f sent s with
  | zero =>
    obtain rfl : f = 0 := BitVec.eq_of_toNat_eq hf
    exact ⟨s, .refl s, by simpa [bytesBits] using h, hp, rfl⟩
  | succ w ih =>
    have hne : f ≠ 0 := fun hzero => by simp [hzero] at hf
    rw [if_pos hne] at hp
    obtain ⟨u, hrun, hu, hphase, hlen⟩ := h.exists_run_window hp
    have hleft : (f - 32).toNat = 32 * w := by
      simp only [BitVec.toNat_sub, BitVec.reduceToNat]
      omega
    obtain ⟨t, hrun', ht, hidle, hlen'⟩ := ih hu hphase hleft
    have hbytes : fillBytes c (32 * (w + 1)) = fillBytes c 32 ++ fillBytes c (32 * w) := by
      rw [← fillBytes_add, Nat.mul_succ, Nat.add_comm]
    rw [List.append_assoc, ← bytesBits_append, ← hbytes] at ht
    rw [hlen, ite_self] at hlen'
    exact ⟨t, hrun.trans hrun', ht, hidle, hlen'⟩

/-- What is left after the remainder: the rows from `F_PWAIT` on, or none where there is no full window. -/
theorem Filling.exists_run_fulls {w : Nat} (h : Filling c x r f sent k s) (hk : k ≤ 16)
    (hp : s.phase = if f = 0 then .idle else .fPwait) (hf : f.toNat = 32 * w) :
    ∃ t, RunsTo s t (List.replicate w 511) ∧
      Filling c x r 0 (sent ++ bytesBits (fillBytes c (32 * w))) (if w = 0 then k else 16) t ∧
      t.phase = .idle ∧ t.len = if w = 0 then s.len else 511 := by
  by_cases hw : w = 0
  · subst hw
    obtain rfl : f = 0 := BitVec.eq_of_toNat_eq hf
    exact ⟨s, .refl s, by simpa [bytesBits] using h, hp, rfl⟩
  · have hne : f ≠ 0 := fun hzero => by simp [hzero] at hf; omega
    rw [if_neg hne] at hp
    obtain ⟨u, hrun, hu, hphase⟩ := h.exists_run_padding hp hk
    obtain ⟨t, hrun', ht, hidle, hlen⟩ := hu.exists_run_windows (by rw [if_pos hne, hphase]) hf
    rw [if_neg hw] at hlen ⊢
    exact ⟨t, hrun.trans hrun', ht, hidle, hlen.trans (if_neg hw).symm⟩

/-- What comes before the full windows: the rows up to `F_RSTART`, or none where there is no remainder. -/
theorem Filling.exists_run_remainder (h : Filling c x r f sent 0 s) (hr : r.toNat < 32)
    (hp : s.phase = if r ≠ 0 then .fRwait else if f = 0 then .idle else .fPwait) :
    ∃ t, RunsTo s t (if r.toNat = 0 then [] else [burstLen r.toNat]) ∧
      Filling c x r f (sent ++ bytesBits (fillBytes c r.toNat)) (wordsFor r.toNat) t ∧
      t.phase = (if f = 0 then .idle else .fPwait) ∧ t.len = if r.toNat = 0 then s.len else burstLen r.toNat := by
  by_cases hzero : r = 0
  · subst hzero
    exact ⟨s, .refl s, by simpa [bytesBits, wordsFor] using h, hp, rfl⟩
  · have hlo := one_le_toNat hzero
    rw [if_pos hzero] at hp
    have hpos : r.toNat ≠ 0 := by omega
    simp only [if_neg hpos]
    exact h.exists_run_remainder_burst hp hlo (by omega)

end

/-! ### The whole command -/

/-- `LEN` after a FILL of `n` pixels, where it was `old` (R134). -/
def fillLen (old : Len) (n : Nat) : Len := if n = 0 then old else if n < 32 then burstLen n else 511

/-- The `LEN` of the full windows, of the remainder, or of neither. -/
theorem fillLen_eq (old : Len) (n : Nat) :
    fillLen old n = if n / 32 = 0 then (if n % 32 = 0 then old else burstLen (n % 32)) else 511 := by
  unfold fillLen
  rcases lt_or_ge n 32 with hlt | hge
  · rw [Nat.div_eq_of_lt hlt, Nat.mod_eq_of_lt hlt, if_pos hlt, if_pos rfl]
  · rw [if_neg (by omega), if_neg (by omega), if_neg (by omega)]

/-- More words than there are slots fill the slots. -/
theorem slotsAfter_min (x : Vector Word 16) (word : Nat → Word) (k : Nat) :
    slotsAfter x word (min k 16) = slotsAfter x word k := by
  ext j hj
  simp only [slotsAfter_get, lt_min_iff, hj, and_true]

/-- Where FILL goes on after `F_ENTRY` (R131), by the parts of its count. -/
theorem fillEntry_phase (n : Word) : (if n = 0 then Phase.idle else if splitRem n ≠ 0 then .fRwait else .fPwait) =
    if splitRem n ≠ 0 then .fRwait else if splitFull n = 0 then .idle else .fPwait := by
  by_cases hrem : splitRem n = 0
  · have hfull : splitFull n = n := by simp [splitFull, hrem]
    simp only [hrem, hfull, ne_eq, not_true_eq_false, if_false]
  · have hne : n ≠ 0 := by
      rintro rfl
      exact hrem rfl
    rw [if_neg hne, if_pos hrem, if_pos hrem]

/-- `F_ENTRY`: the working registers are set and no slot is written yet. -/
theorem exists_seqStep_fEntry {s : State} {c : Pixel} {n : Word} (hs : hostSilent s) (hp : s.phase = .fEntry)
    (hcount : descCount s.desc = n) (hcolor : descColor s.desc = c) :
    ∃ t, seqStep s = .next t ∧ Filling c s.slots (splitRem n) (splitFull n) (sentSoFar s) 0 t ∧
      t.phase = (if splitRem n ≠ 0 then .fRwait else if splitFull n = 0 then .idle else .fPwait) ∧
      t.busy = s.busy ∧ t.len = s.len := by
  have hstep : seqStep s =
      .next (((((s.setRem (splitRem n)).setFull (splitFull n)).setFw (fillWord c)).setIdx 0).setPhase
        (if splitRem n ≠ 0 then .fRwait else if splitFull n = 0 then .idle else .fPwait)) := by
    simp only [seqStep, hp, fillEntry, hcount, hcolor, fillEntry_phase]
  refine ⟨_, hstep, ⟨?_, rfl, rfl, rfl, rfl, ?_, slotsHeld_zero _, ?_⟩, rfl, ?_, ?_⟩
  · simpa [hostSilent] using hs
  all_goals simp [slotsAfter_zero, sentSoFar]

/-- From its ISSUE to the end of its entry step FILL writes its own registers only; a burst in flight may complete. -/
theorem exists_run_filling {s : State} (c : Pixel) (n : Word) (hs : standing s) :
    ∃ t, RunsTo (asking s (encode (.fill c n))) t [] ∧
      Filling c s.slots (splitRem n) (splitFull n) (sentSoFar s) 0 t ∧
      t.phase = (if splitRem n ≠ 0 then .fRwait else if splitFull n = 0 then .idle else .fPwait) ∧
      t.len = s.len ∧ t.mem = s.mem ∧ t.params = s.params ∧ t.result = s.result := by
  obtain ⟨u, ⟨hu, hsent⟩, hrun⟩ := exists_run_issue hs (decodeEncodeRoundTrip (.fill c n)) fun _ hu => exec_fill hu
  have hserial : u.params.busMode = .serial := by rw [hu]; exact hs.2
  obtain ⟨v, ⟨hv, hsent'⟩, -, hrun'⟩ :=
    exists_seqStep (s := (u.setHost []).latch (commandDesc (.fill c n)) .fEntry) ⟨rfl, hserial⟩ (by simp)
  have hsilent : hostSilent v := by rw [hv]; exact ⟨rfl, hserial⟩
  obtain ⟨t, hstep, ht, hphase, hbusy, hlen⟩ := exists_seqStep_fEntry (n := n) (c := c) hsilent (by rw [hv]; rfl)
    (by rw [hv]; exact descCount_encodeDesc ..) (by rw [hv]; exact descColor_encodeDesc ..)
  have hframe := (seqStep_eq_next hstep).undisturbed
  have hrun'' := startedBy_of_busy_eq hbusy ▸ hrun' t hstep
  have hslots : v.slots = s.slots := by rw [hv, hu]; rfl
  rw [hslots, hsent'.trans hsent] at ht
  refine ⟨t, hrun.trans hrun'', ht, hphase, ?_, ?_, ?_, ?_⟩
  · rw [hlen, hv, hu]; rfl
  · rw [hframe.mem, hv, hu]; rfl
  · rw [hframe.params, hv, hu]; rfl
  · rw [hframe.result, hv, hu]; rfl

/-- FILL runs to a quiet state: what it sends and what it leaves (R132 to R134). -/
theorem exists_run_fill {s : State} (c : Pixel) (n : Word) (hs : standing s) :
    ∃ t, RunsTo (asking s (encode (.fill c n))) t (fillBursts n.toNat) ∧ quiet t ∧
      t.tx = sentSoFar s ++ bytesBits (fillBytes c n.toNat) ∧ t.len = fillLen s.len n.toNat ∧
      t.slots = slotsAfter s.slots (fun _ => fillWord c) (wordsFor n.toNat) ∧
      t.mem = s.mem ∧ t.params = s.params ∧ t.result = s.result := by
  obtain ⟨u, hrun, hu, hphase, hlen, hmem, hparams, hresult⟩ := exists_run_filling c n hs
  have hrem := splitRem_toNat n
  have hwindows : (splitFull n).toNat = 32 * (n.toNat / 32) := by rw [splitFull_toNat]; omega
  obtain ⟨v, hrun', hv, hphase', hlen'⟩ := hu.exists_run_remainder (by omega) hphase
  obtain ⟨w, hrun'', hw, hidle, hlen''⟩ := hv.exists_run_fulls (wordsFor_le_slotCount (by omega)) hphase' hwindows
  obtain ⟨t, ⟨ht, hsent⟩, hquiet, hrest⟩ := exists_run_quiet hw.silent hidle
  have hframe := ((hrun'.trans hrun'').trans hrest).undisturbed hu.silent.1
  rw [hrem] at hrun' hlen' hw
  refine ⟨t, ?_, hquiet, ?_, ?_, ?_, hframe.mem.trans hmem, hframe.params.trans hparams,
    hframe.result.trans hresult⟩
  · simpa [fillBursts] using hrun.trans ((hrun'.trans hrun'').trans hrest)
  · rw [← sentSoFar_of_idle hquiet.2.1, hsent, hw.sent, List.append_assoc, ← bytesBits_append, ← fillBytes_add,
      Nat.mod_add_div]
  · rw [fillLen_eq, ht, ← hlen, ← hlen', ← hlen'']
  · rw [ht, ← slotsAfter_min]
    refine hw.slots.trans (congrArg (slotsAfter s.slots _) ?_)
    unfold wordsFor
    split_ifs <;> omega

/-- Settles O54, by the run of the whole command. -/
theorem fillSendsColourCountTimes : Obligations.FillSendsColourCountTimes := by
  intro s c n hs
  obtain ⟨t, hrun, hquiet, htx, -, -, hframe⟩ := exists_run_fill c n hs
  obtain ⟨k, hlog⟩ := hrun.exists_runLog
  exact ⟨k, t, hlog, hquiet, htx, hframe⟩

/-- Settles O55, by the run of the whole command: FILLWORD is in the slots of its words. -/
theorem fillLeavesItsWord : Obligations.FillLeavesItsWord := by
  intro s c n hs
  obtain ⟨t, hrun, hquiet, -, hlen, hslots, -⟩ := exists_run_fill c n hs
  obtain ⟨k, hlog⟩ := hrun.exists_runLog
  refine ⟨k, t, _, hlog, hquiet, fun hzero => ?_, fun hne => ?_, fun _ j hj => ?_⟩
  · subst hzero
    exact ⟨hlen, hslots.trans (slotsAfter_zero _ _)⟩
  · have hpos := one_le_toNat hne
    rw [hlen, fillLen, if_neg (by omega)]
  · have hcovers : j < wordsFor n.toNat ↔ 32 ≤ n.toNat ∨ j < wordsFor n.toNat := by
      unfold wordsFor
      omega
    simp only [hslots, slotsAfter_get, ← hcovers]

end Sys2Proof.Machine
end

section
/-! PROOFS. What WRPIX sends and leaves (spec/43_pixel_stream_writer.md R145 to R152): its full windows, its remainder,
and the whole command from its ISSUE to the quiet state after it. -/

namespace Sys2Proof.Machine

/-! ### The words of the buffer -/

/-- The pixel whose two bytes stand at `a`, the low one first (R51). -/
def pixelAt (m : Memory) (a : Nat) : Pixel := byteAt m (a + 1) ++ byteAt m a

/-- The two pixels that stand at `a`, as a slot holds them (R51, R110). -/
def wordAt (m : Memory) (a : Nat) : Word := pack2 (pixelAt m a) (pixelAt m (a + 2))

theorem readHalf_of_readable {m : Memory} {a : Nat} (h : readableRegion m a 2) :
    readHalf m (BitVec.ofNat 32 a) = some (pixelAt m a) := by
  have h0 := readByte_ptr_of_readable h (by decide)
  have h1 : readByte m (BitVec.ofNat 32 a + 1) = _ := readByte_of_readable h (k := 1) (by decide)
  simp only [readHalf, h0, h1, pixelAt]

theorem readWord_of_readable {m : Memory} {a : Nat} (h : readableRegion m a 4) :
    readWord m (BitVec.ofNat 32 a) = some (wordAt m a) := by
  have h0 := readByte_ptr_of_readable h (by decide)
  have h1 : readByte m (BitVec.ofNat 32 a + 1) = _ := readByte_of_readable h (k := 1) (by decide)
  have h2 : readByte m (BitVec.ofNat 32 a + 2) = _ := readByte_of_readable h (k := 2) (by decide)
  have h3 : readByte m (BitVec.ofNat 32 a + 3) = _ := readByte_of_readable h (k := 3) (by decide)
  rw [(sourceReadsLittleEndian m _ _ _ _ _ h0 h1 h2 h3).2, wordAt, pixelAt, pixelAt, pack2_append]

/-- Word `j` of a buffer at `a`. -/
def streamWord (m : Memory) (a j : Nat) : Word := wordAt m (a + 4 * j)

/-- `PTR` once `j` words of a buffer at `a` have been read; at the top of the address space it wraps (R58). -/
def streamPtr (a j : Nat) : Word := BitVec.ofNat 32 (a + 4 * j)

/-- A slot row of WRPIX loads the next word of its buffer. -/
theorem loadRow_readWord {u : State} {a n j limit : Nat} {p q : Phase} (h : readableRegion u.mem a (4 * n))
    (hj : j < n) (hptr : u.ptr = streamPtr a j) :
    loadRow (readWord u.mem u.ptr) 4 limit p q u =
      loadRow (some (streamWord u.mem a j)) (streamPtr a (j + 1) - streamPtr a j) limit p q u := by
  have hstep : streamPtr a (j + 1) - streamPtr a j = 4 := by
    rw [streamPtr, Nat.mul_succ, ← Nat.add_assoc, BitVec.ofNat_add, BitVec.add_comm, streamPtr,
      BitVec.add_sub_cancel]
    rfl
  rw [hstep, hptr, streamPtr, readWord_of_readable (readableRegion_sub h (by omega)), streamWord]

/-- The lanes of the words are the pixels of the buffer in their order. -/
theorem wordPixel_streamWord (m : Memory) (a k : Nat) : wordPixel (streamWord m a) k = pixelAt m (a + 2 * k) := by
  rcases Nat.mod_two_eq_zero_or_one k with hpar | hpar
  · have haddr : 4 * (k / 2) = 2 * k := by omega
    rw [wordPixel, if_pos hpar, streamWord, wordAt, lane0_pack2, haddr]
  · have haddr : a + 4 * (k / 2) + 2 = a + 2 * k := by omega
    rw [wordPixel, if_neg (by omega), streamWord, wordAt, lane1_pack2, haddr]

theorem payload_streamWord (x : Vector Word 16) (m : Memory) (a : Nat) {n : Nat} (hlo : 1 ≤ n) (hhi : n ≤ 32) :
    payload (burstLen n) (slotsAfter x (streamWord m a) (wordsFor n)) = bytesBits (bytesAt m a (2 * n)) := by
  rw [payload_slotsAfter x _ hlo hhi, bytesAt_eq_pairs]
  simp only [wordPixel_streamWord, pixelAt, BitVec.extractLsb'_append_eq_right, BitVec.extractLsb'_append_eq_left]

theorem bytesAt_add (m : Memory) (a k n : Nat) : bytesAt m a (k + n) = bytesAt m a k ++ bytesAt m (a + k) n := by
  simp only [bytesAt, List.range_add, List.map_append, List.map_map, Function.comp_def, Nat.add_assoc]

/-! ### The bursts of WRPIX -/

/-- A full window, with `REM` at `r`. -/
def streamFullBurst (m : Memory) (a : Nat) (r : Word) : Burst where
  wait := .wFwait
  length := .wFlen
  slot := .wFslot
  start := .wFstart
  pixels := 32
  word := streamWord m a
  ptr := streamPtr a
  left := r - 32
  next := streamSelect (r - 32)

/-- The remainder. -/
def streamTailBurst (m : Memory) (a : Nat) (r : Word) : Burst where
  wait := .wTwait
  length := .wTlen
  slot := .wTslot
  start := .wTstart
  pixels := r.toNat
  word := streamWord m a
  ptr := streamPtr a
  left := r
  next := .idle

theorem streamFullBurst_rowsOf {m : Memory} {a : Nat} (r : Word) (h : readableRegion m a (4 * wordsFor 32)) :
    (streamFullBurst m a r).RowsOf m r where
  isWait := rfl
  active := by simp [streamFullBurst]
  pixels_pos := by simp [streamFullBurst]
  pixels_le := le_rfl
  waitRow u hp := by simp only [seqStep, hp, streamFullBurst]; rfl
  lenRow u hp _ := by simp only [seqStep, hp, streamFullBurst]; rfl
  loadRow u k hp hr hm hk hlt hptr := by
    subst hm
    simp only [seqStep, hp, streamFullBurst]
    exact loadRow_readWord (limit := wordsFor 32) h hlt hptr
  startRow u hp hr := by subst hr; simp only [seqStep, hp, streamFullBurst]; rfl

theorem streamTailBurst_rowsOf {m : Memory} {a : Nat} {r : Word} (hlo : 1 ≤ r.toNat) (hhi : r.toNat ≤ 32)
    (h : readableRegion m a (4 * wordsFor r.toNat)) : (streamTailBurst m a r).RowsOf m r where
  isWait := rfl
  active := by simp [streamTailBurst]
  pixels_pos := hlo
  pixels_le := hhi
  waitRow u hp := by simp only [seqStep, hp, streamTailBurst]; rfl
  lenRow u hp hr := by
    subst hr
    simp only [seqStep, hp, streamTailBurst, streamTlen, lenVal_eq_burstLen hlo hhi]
  loadRow u k hp hr hm hk hlt hptr := by
    subst hm hr
    simp only [seqStep, hp, streamTailBurst, streamTslot]
    exact loadRow_readWord h hlt hptr
  startRow u hp hr := by
    subst hr
    simp only [seqStep, hp, streamTailBurst]
    exact startRow_setRem_self .idle u

/-! ### The slots -/

/-- What a WRPIX of `n` pixels at `a` leaves in slot `j`, where it was `old` (R152). -/
def streamSlot (m : Memory) (a n j : Nat) (old : Word) : Word :=
  (streamSlotOffset n j).elim old fun o => wordAt m (a + o)

/-- Fewer pixels than a window's leave their words, and every other slot as it was. -/
theorem streamSlot_tail (m : Memory) (a : Nat) {n : Nat} (h : n < 32) (j : Nat) (old : Word) :
    streamSlot m a n j old = if j < wordsFor n then streamWord m a j else old := by
  rw [streamSlot, streamSlotOffset, Nat.mod_eq_of_lt h, Nat.div_eq_of_lt h, if_pos rfl, Nat.mul_zero, Nat.zero_add]
  split_ifs <;> rfl

/-- After a full window the offsets are those of the pixels after it, or the window's own. -/
theorem streamSlotOffset_full {n : Nat} (h : 32 ≤ n) (j : Nat) :
    streamSlotOffset n j = some ((streamSlotOffset (n - 32) j).elim (4 * j) (64 + ·)) := by
  have hwindows : n / 32 = (n - 32) / 32 + 1 := by omega
  have hrem : n % 32 = (n - 32) % 32 := by omega
  rw [streamSlotOffset, streamSlotOffset, hrem, hwindows, if_neg (Nat.succ_ne_zero _)]
  split_ifs with hcovered hlast <;> refine congrArg some ?_
  · change _ = 64 + (64 * ((n - 32) / 32) + 4 * j)
    omega
  · change _ = 4 * j
    omega
  · change _ = 64 + (64 * ((n - 32) / 32 - 1) + 4 * j)
    omega

/-- A full window leaves its words, and the pixels after it leave theirs in place of some of them. -/
theorem streamSlot_full (m : Memory) (a : Nat) {n : Nat} (h : 32 ≤ n) (j : Nat) (old : Word) :
    streamSlot m a n j old = streamSlot m (a + 64) (n - 32) j (streamWord m a j) := by
  rw [streamSlot, streamSlotOffset_full h, streamSlot]
  cases streamSlotOffset (n - 32) j with
  | none => rfl
  | some o => exact congrArg (wordAt m) (Nat.add_assoc a 64 o).symm

/-- The word a slot is left with is one of the words read (R56). -/
theorem streamSlotOffset_le {n j o : Nat} (hj : j < 16) (h : streamSlotOffset n j = some o) :
    o + 4 ≤ 4 * wordsFor n := by
  unfold streamSlotOffset at h
  unfold wordsFor at h ⊢
  split_ifs at h <;> cases h <;> omega

/-! ### The windows and the remainder -/

/-- WRPIX has `n` pixels left to send, which stand at `a`, and is about to go on with them. -/
structure StreamLeft (m : Memory) (a n : Nat) (s : State) : Prop where
  silent : hostSilent s
  mem : s.mem = m
  phase : s.phase = streamSelect s.rem
  rem : s.rem.toNat = n
  ptr : s.ptr = BitVec.ofNat 32 a
  region : readableRegion m a (4 * wordsFor n)

/-- The `n` pixels at `a` are sent, but for a last burst still in flight, and their words are in the slots. -/
structure StreamDone (m : Memory) (a n : Nat) (s t : State) : Prop where
  phase : t.phase = .idle
  sent : sentSoFar t = sentSoFar s ++ bytesBits (bytesAt m a (2 * n))
  len : t.len = (streamBursts n).getLastD s.len
  slots : ∀ j (hj : j < 16), t.slots[j] = streamSlot m a n j s.slots[j]

theorem streamBursts_full {n : Nat} (h : 32 ≤ n) : streamBursts n = burstLen 32 :: streamBursts (n - 32) := by
  have hwindows : n / 32 = (n - 32) / 32 + 1 := by omega
  have hrem : n % 32 = (n - 32) % 32 := by omega
  rw [streamBursts, hwindows, List.replicate_succ, hrem]
  rfl

theorem streamBursts_tail {n : Nat} (hlo : 1 ≤ n) (hhi : n < 32) : streamBursts n = [burstLen n] := by
  rw [streamBursts, Nat.div_eq_of_lt hhi, Nat.mod_eq_of_lt hhi, if_neg (by omega)]
  rfl

/-- Any pixels take a burst. -/
theorem streamBursts_getLast? {n : Nat} (h : 1 ≤ n) (old : Len) :
    (streamBursts n).getLast? = some ((streamBursts n).getLastD old) := by
  have hsome : streamBursts n ≠ [] := by
    rcases lt_or_ge n 32 with htail | hfull
    · simp [streamBursts_tail h htail]
    · simp [streamBursts_full hfull]
  rw [List.getLastD_eq_getLast?, List.getLast?_eq_some_getLast hsome, Option.getD_some]

/-- A burst puts the pixels it has read on the bus unchanged (R151). -/
theorem Burst.RowsOf.streamedBytes {b : Burst} {m : Memory} {r : Word} {a : Nat} {s t : State} (hrows : b.RowsOf m r)
    (hword : b.word = streamWord m a) (h : b.Sent s t) :
    sentSoFar t = sentSoFar s ++ bytesBits (bytesAt m a (2 * b.pixels)) := by
  rw [h.sent, hword, payload_streamWord _ _ _ hrows.pixels_pos hrows.pixels_le]

/-- A full window, after which the other pixels are left. -/
theorem StreamLeft.exists_run_full {m : Memory} {a n : Nat} {s : State} (hs : StreamLeft m a n s) (hn : 32 ≤ n) :
    ∃ t, RunsTo s t [burstLen 32] ∧ StreamLeft m (a + 64) (n - 32) t ∧
      sentSoFar t = sentSoFar s ++ bytesBits (bytesAt m a 64) ∧ t.len = burstLen 32 ∧
      ∀ j (hj : j < 16), t.slots[j] = streamWord m a j := by
  obtain ⟨hsilent, rfl, hphase, rfl, hptr, hregion⟩ := hs
  have hsplit : wordsFor s.rem.toNat = 16 + wordsFor (s.rem.toNat - 32) := by unfold wordsFor; omega
  have hrows := streamFullBurst_rowsOf s.rem (readableRegion_of_le hregion (by unfold wordsFor; omega))
  obtain ⟨t, hrun, hsent⟩ := hrows.exists_run hsilent rfl (hphase.trans (if_pos hn)) hptr
  have hu := hrun.undisturbed hsilent.1
  have hrem : t.rem.toNat = s.rem.toNat - 32 := by
    simp only [hsent.rem, streamFullBurst, BitVec.toNat_sub, BitVec.reduceToNat]
    omega
  refine ⟨t, hrun, ⟨hu.hostSilent hsilent, hu.mem, ?_, hrem, ?_, readableRegion_sub hregion (by omega)⟩,
    hrows.streamedBytes rfl hsent, hsent.len, fun j hj => ?_⟩
  · rw [hsent.phase, hsent.rem]
    rfl
  · exact hsent.ptr.trans (congrArg (fun k => BitVec.ofNat 32 (a + k)) (by decide : 4 * wordsFor 32 = 64))
  · simp only [hsent.slots, slotsAfter_get]
    exact if_pos (show j < wordsFor 32 from hj)

/-- The remainder, which completes the command (R149). -/
theorem StreamLeft.exists_run_tail {m : Memory} {a n : Nat} {s : State} (hs : StreamLeft m a n s) (hlo : 1 ≤ n)
    (hhi : n < 32) : ∃ t, RunsTo s t (streamBursts n) ∧ StreamDone m a n s t := by
  obtain ⟨hsilent, rfl, hphase, rfl, hptr, hregion⟩ := hs
  have hzero : s.rem ≠ 0 := fun h => by simp [h] at hlo
  rw [streamSelect, if_neg (by omega), if_neg hzero] at hphase
  have hrows := streamTailBurst_rowsOf hlo (by omega) hregion
  obtain ⟨t, hrun, hsent⟩ := hrows.exists_run hsilent rfl hphase hptr
  have hbursts := streamBursts_tail hlo hhi
  refine ⟨t, hbursts ▸ hrun, hsent.phase, hrows.streamedBytes rfl hsent, hbursts ▸ hsent.len, fun j hj => ?_⟩
  rw [streamSlot_tail _ _ hhi]
  simp only [hsent.slots, slotsAfter_get]
  rfl

/-- The pixels left are sent, by induction on their number (R147). -/
theorem StreamLeft.exists_run {m : Memory} {a n : Nat} {s : State} (hs : StreamLeft m a n s) :
    ∃ t, RunsTo s t (streamBursts n) ∧ StreamDone m a n s t := by
  induction n using Nat.strong_induction_on generalizing a s with
  | _ n ih =>
    obtain rfl | ⟨hlo, htail⟩ | hfull : n = 0 ∨ (1 ≤ n ∧ n < 32) ∨ 32 ≤ n := by omega
    · have hzero : s.rem = 0 := BitVec.eq_of_toNat_eq hs.rem
      have hp : s.phase = .idle := by rw [hs.phase, hzero]; rfl
      exact ⟨s, .refl s, hp, (List.append_nil _).symm, rfl, fun _ _ => rfl⟩
    · exact hs.exists_run_tail hlo htail
    · obtain ⟨u, hrun, hleft, hsent, hlen, hslots⟩ := hs.exists_run_full hfull
      obtain ⟨t, hrun', ht⟩ := ih (n - 32) (by omega) hleft
      have hbursts := streamBursts_full hfull
      have hbytes := bytesAt_add m a 64 (2 * (n - 32))
      have hcount : 64 + 2 * (n - 32) = 2 * n := by omega
      rw [hcount] at hbytes
      refine ⟨t, hbursts ▸ hrun.trans hrun', ht.phase, ?_, ?_, fun j hj => ?_⟩
      · rw [ht.sent, hsent, hbytes, bytesBits_append, List.append_assoc]
      · rw [ht.len, hlen, hbursts, List.getLastD_cons]
      · rw [ht.slots j hj, hslots j hj, streamSlot_full _ _ hfull]

/-! ### The whole command -/

/-- A command handed over where it may be issued comes to its entry step, perhaps after the completion of a burst in
flight; what its ISSUE looks at may include the parameters (R52). -/
theorem exists_run_entry {s : State} {p : PortWord} {i : Instr} {d : Desc} {entry : Phase} (hs : standing s)
    (hd : decodePort p = .ok i) (hentry : entry ≠ .idle)
    (hx : ∀ u, standing u → u.params = s.params → exec i u = .next (u.latch d entry)) :
    ∃ v, BusMoved ((s.setHost []).latch d entry) v ∧
      ∀ t, seqStep v = .next t → t.busy = v.busy → RunsTo (asking s p) t [] := by
  obtain ⟨hphase, hserial⟩ := hs
  have honly : ∀ b, enabled (asking s p) b = true → b = .host ∨ b = .burst := by
    intro b hb
    cases b
    case seq => simp [enabled, seqEnabled, State.seqActive, asking, hphase] at hb
    case host => exact .inl rfl
    case burst => exact .inr rfl
  obtain ⟨u, ⟨hu, hsent⟩, -, hrun⟩ := exists_agentStep (s := asking s p) hserial honly fun u ⟨hu, _⟩ hb =>
    enabledAgents_eq_host (p := p) (rest := []) (by rw [hu]; rfl) (by rw [hu]; exact hphase) hb
  have hparams : u.params = s.params := by rw [hu]; rfl
  have hstanding : standing (u.setHost []) := ⟨by rw [hu]; exact hphase, hparams ▸ hserial⟩
  have hissue := hrun _ ((hostStep_of_decodes (by rw [hu]; rfl) hd).trans (hx _ hstanding hparams))
  rw [startedBy_of_busy_eq (by rfl)] at hissue
  obtain ⟨v, ⟨hv, hsent'⟩, -, hrun'⟩ :=
    exists_seqStep (s := (u.setHost []).latch d entry) ⟨rfl, hparams ▸ hserial⟩ hentry
  refine ⟨v, ⟨by rw [hv, hu]; rfl, hsent'.trans hsent⟩, fun t ht hbusy => ?_⟩
  simpa [startedBy_of_busy_eq hbusy] using hissue.trans (hrun' t ht)

/-- From its ISSUE to the end of its entry step WRPIX writes its own registers only; a burst in flight may complete. -/
theorem exists_run_streamLeft {s : State} {src n : Word} (hs : standing s) (ha : alignedFor s.params src n = true)
    (hw : (Instr.wrpix src n).WellFormed) (hread : readable s.mem src.toNat (4 * wordsFor n.toNat) = true) :
    ∃ t, RunsTo (asking s (encode (.wrpix src n))) t [] ∧ StreamLeft s.mem src.toNat n.toNat t ∧
      sentSoFar t = sentSoFar s ∧ t.len = s.len ∧ t.slots = s.slots ∧ t.params = s.params ∧
      t.result = s.result := by
  have hfits := region_le_of_wellFormed (i := .wrpix src n) src.isLt hw
  obtain ⟨v, ⟨hv, hsent⟩, hrun⟩ := exists_run_entry hs (decodeEncodeRoundTrip (.wrpix src n)) (by decide)
    fun _ hu hparams => exec_wrpix hu (hparams ▸ ha) hw
  have hcount : descCount v.desc = n := by rw [hv]; exact descCount_encodeDesc ..
  have hsrc : descSrc v.desc = src := by rw [hv]; exact descSrc_encodeDesc ..
  have hentry : seqStep v = .next ((((v.setRem n).setPtr src).setIdx 0).setPhase (streamSelect n)) := by
    have hphase : v.phase = .wEntry := by rw [hv]; rfl
    simp only [seqStep, hphase, streamEntry, hcount, hsrc]
  refine ⟨_, hrun _ hentry rfl, ⟨?_, ?_, rfl, rfl, ?_, hread, hfits⟩, hsent, ?_, ?_, ?_, ?_⟩
  · rw [hv]; exact ⟨rfl, hs.2⟩
  · rw [hv]; rfl
  · simp
  all_goals rw [hv]; rfl

/-- WRPIX runs to a quiet state, its pixels sent and its words in the slots (R151, R152). -/
theorem exists_run_wrpix {s : State} {src n : Word} (hs : standing s) (ha : alignedFor s.params src n = true)
    (hw : (Instr.wrpix src n).WellFormed) (hread : readable s.mem src.toNat (4 * wordsFor n.toNat) = true) :
    ∃ t, RunsTo (asking s (encode (.wrpix src n))) t (streamBursts n.toNat) ∧ quiet t ∧
      StreamDone s.mem src.toNat n.toNat s t ∧ t.mem = s.mem ∧ t.params = s.params ∧ t.result = s.result := by
  obtain ⟨u, hrun, hu, hsent, hlen, hslots, hparams, hresult⟩ := exists_run_streamLeft hs ha hw hread
  obtain ⟨v, hrun', hv⟩ := hu.exists_run
  have hsilent := (hrun'.undisturbed hu.silent.1).hostSilent hu.silent
  obtain ⟨t, ⟨ht, hsent'⟩, hquiet, hrest⟩ := exists_run_quiet hsilent hv.phase
  have hframe := (hrun'.trans hrest).undisturbed hu.silent.1
  have hkept : t.len = v.len ∧ t.slots = v.slots := by rw [ht]; exact ⟨rfl, rfl⟩
  refine ⟨t, ?_, hquiet, ⟨hquiet.1, ?_, ?_, fun j hj => ?_⟩, hframe.mem.trans hu.mem, hframe.params.trans hparams,
    hframe.result.trans hresult⟩
  · simpa using hrun.trans (hrun'.trans hrest)
  · rw [hsent', hv.sent, hsent]
  · rw [hkept.1, hv.len, hlen]
  · simp only [hkept.2, ← hslots, hv.slots j hj]

/-- The slots of WRPIX hold the pixels at their places in the source. -/
theorem streamLeaves_of_streamSlot {s t : State} {src n : Word}
    (h : readableRegion s.mem src.toNat (4 * wordsFor n.toNat))
    (hslots : ∀ j (hj : j < 16), t.slots[j] = streamSlot s.mem src.toNat n.toNat j s.slots[j]) :
    streamLeaves s t src n := by
  intro j hj
  rw [hslots j hj, streamSlot]
  cases ho : streamSlotOffset n.toNat j with
  | none => rfl
  | some o =>
    have hfits := streamSlotOffset_le hj ho
    have hhalf (k : Nat) (hk : k ≤ 2) :
        readHalf s.mem (src + BitVec.ofNat 32 (o + k)) = some (pixelAt s.mem (src.toNat + (o + k))) := by
      rw [← readHalf_of_readable (readableRegion_sub h (by omega)), BitVec.ofNat_add src.toNat, BitVec.ofNat_toNat,
        BitVec.setWidth_eq]
    simp only [Option.elim, wordAt, lane0_pack2, lane1_pack2]
    exact ⟨hhalf 0 (by decide), fun _ => hhalf 2 le_rfl⟩

/-- Settles O56, by the run of the whole command: the last of its bursts, if there is one, left `LEN`. -/
theorem wrpixSendsBufferInOrder : Obligations.WrpixSendsBufferInOrder := by
  intro s src n hs ha hw hread
  obtain ⟨t, hrun, hquiet, ht, hframe⟩ := exists_run_wrpix hs ha hw hread
  obtain ⟨k, hlog⟩ := hrun.exists_runLog
  refine ⟨k, t, hlog, hquiet, ?_, fun hzero => ?_, fun hne => ?_, ?_, hframe⟩
  · rw [← sentSoFar_of_idle hquiet.2.1, ht.sent]
  · subst hzero
    exact ⟨ht.len, Vector.ext ht.slots⟩
  · rw [ht.len, streamBursts_getLast? (one_le_toNat hne)]
  · exact streamLeaves_of_streamSlot ⟨hread, region_le_of_wellFormed (i := .wrpix src n) src.isLt hw⟩ ht.slots

end Sys2Proof.Machine
end

section
/-! PROOFS. What WRPIXS leaves (spec/44_byte_swap_adapter.md R160 to R169): the words in the slots and `LEN` as its
bursts leave them, beside what they send. -/

namespace Sys2Proof.Machine

/-! ### The parameters -/

theorem Executed.params_eq {s t : State} {i : Instr} (h : Executed s i t) : t.params = s.params := by
  cases h <;> rfl

theorem HostActed.params_eq {s t : State} {act : HostAct} (h : HostActed s act t) : t.params = s.params := by
  cases h with
  | op _ hx => exact hx.params_eq
  | awaitDone | readActive | poke | reset => rfl

theorem Stepped.params_eq {s t : State} (h : Stepped s t) : t.params = s.params := by
  cases h with
  | none | burst => rfl
  | host l n _ ha => exact ha.params_eq
  | seq l n _ hm => exact hm.undisturbed.params

/-- No step writes the parameters, whichever agent's it is (R7). -/
theorem RunsTo.params_eq {s t : State} {lens : List Len} (h : RunsTo s t lens) : t.params = s.params := by
  induction h with
  | refl => rfl
  | step hstep _ ih => exact ih.trans (step_eq_next_cases hstep).params_eq

/-! ### The words of the buffer -/

/-- The slot word of the pixels of a buffer of `n` at `a` from its byte `o` on, their bytes exchanged: two of them, or
the last one with the high lane zero (R113, R114). -/
def swappedWord (m : Memory) (a n o : Nat) : Word :=
  pack2 (bswap16 (pixelAt m (a + o))) (if o + 2 < 2 * n then bswap16 (pixelAt m (a + (o + 2))) else 0)

theorem swapWordAt_eq_swappedWord (m : Memory) (a n j : Nat) : swapWordAt m a n j = swappedWord m a n (4 * j) := by
  have hwhole : 4 * j + 2 < 2 * n ↔ 2 * j + 1 < n := by omega
  rw [swapWordAt, swappedWord, swapWord_eq_pack2, swapHalf_eq_pack2]
  simp only [hwhole]
  split_ifs <;> rfl

/-- A word stands at the same place in the whole buffer as in the part of it after the first `k` pixels. -/
theorem swappedWord_shift (m : Memory) (a : Nat) {k n : Nat} (o : Nat) (h : k ≤ n) :
    swappedWord m (a + 2 * k) (n - k) o = swappedWord m a n (2 * k + o) := by
  have hlast : o + 2 < 2 * (n - k) ↔ 2 * k + o + 2 < 2 * n := by omega
  simp only [swappedWord, hlast, Nat.add_assoc]

/-- A whole word of the first `k` pixels is the same word of all of them. -/
theorem swappedWord_of_lt {m : Memory} {a k n o : Nat} (ho : o + 2 < 2 * k) (h : k ≤ n) :
    swappedWord m a k o = swappedWord m a n o := by
  rw [swappedWord, swappedWord, if_pos ho, if_pos (by omega)]

/-! ### The slots -/

/-- The pixels of the next burst where 16 or more are left: a full one's or the half burst's (R165). -/
def firstTier (n : Nat) : Nat := if 32 ≤ n then 32 else 16

theorem firstTier_full {n : Nat} (h : 32 ≤ n) : firstTier n = 32 := if_pos h

theorem firstTier_half {n : Nat} (h : n < 32) : firstTier n = 16 := if_neg (by omega)

theorem firstTier_pos (n : Nat) : 0 < firstTier n := by
  unfold firstTier
  split_ifs <;> decide

theorem firstTier_le {n : Nat} (h : 16 ≤ n) : firstTier n ≤ n := by
  unfold firstTier
  split_ifs with hfull
  · exact hfull
  · exact h

theorem firstTier_even (n : Nat) : firstTier n % 2 = 0 := by
  unfold firstTier
  split_ifs <;> rfl

/-- What a WRPIXS of `n` pixels at `a` leaves in slot `j`, where it was `old` (R169). -/
def swapSlot (m : Memory) (a n j : Nat) (old : Word) : Word := (swapSlotOffset n j).elim old (swappedWord m a n)

/-- Fewer pixels than a half burst's leave their words, and every other slot as it was. -/
theorem swapSlot_tail (m : Memory) (a : Nat) {n : Nat} (h : n < 16) (j : Nat) (old : Word) :
    swapSlot m a n j old = if j < wordsFor n then swapWordAt m a n j else old := by
  have hparts : n % 16 = n ∧ n / 16 = 0 ∧ n / 32 = 0 ∧ ¬ (16 ≤ n % 32 ∧ j < 8) := by omega
  obtain ⟨htail, hhalves, hfulls, hhalf⟩ := hparts
  rw [swapSlot, swapSlotOffset, htail, hhalves, if_neg hhalf, if_pos hfulls, swapWordAt_eq_swappedWord, Nat.mul_zero,
    Nat.zero_add]
  split_ifs <;> rfl

/-- The offsets of a count are those of the pixels after the next burst, else, below its words, that burst's own. -/
theorem swapSlotOffset_firstTier {n j : Nat} (hn : 16 ≤ n) (hj : j < 16) :
    swapSlotOffset n j = (swapSlotOffset (n - firstTier n) j).elim
      (if j < wordsFor (firstTier n) then some (4 * j) else none) fun o => some (2 * firstTier n + o) := by
  rcases lt_or_ge n 32 with hhalf | hfull
  · have hparts : n % 16 = n - 16 ∧ (n - 16) % 16 = n - 16 ∧ n / 16 = 1 ∧ (n - 16) / 16 = 0 ∧ n / 32 = 0 ∧
        (n - 16) / 32 = 0 := by omega
    have htiers : 16 ≤ n % 32 ∧ ¬ 16 ≤ (n - 16) % 32 := by omega
    have hwords : wordsFor 16 = 8 := rfl
    rw [firstTier_half hhalf]
    simp only [swapSlotOffset, hparts, htiers, hwords, true_and, false_and, if_true, if_false]
    split_ifs <;> simp
  · have hparts : n % 32 = (n - 32) % 32 ∧ n % 16 = (n - 32) % 16 ∧ n / 32 = (n - 32) / 32 + 1 ∧
        n / 16 = (n - 32) / 16 + 2 := by omega
    obtain ⟨hrem, htail, hfulls, hhalves⟩ := hparts
    rw [firstTier_full hfull, if_pos (show j < wordsFor 32 from hj), swapSlotOffset, swapSlotOffset, hrem, htail,
      hfulls, hhalves, if_neg (Nat.succ_ne_zero _)]
    split_ifs <;> simp <;> omega

/-- The next burst leaves its words, and the pixels after it leave theirs in place of some of them. -/
theorem swapSlot_firstTier (m : Memory) (a : Nat) {n j : Nat} (hn : 16 ≤ n) (hj : j < 16) (old : Word) :
    swapSlot m a n j old = swapSlot m (a + 2 * firstTier n) (n - firstTier n) j
      (if j < wordsFor (firstTier n) then swapWordAt m a (firstTier n) j else old) := by
  have hle := firstTier_le hn
  rw [swapSlot, swapSlotOffset_firstTier hn hj, swapSlot]
  cases swapSlotOffset (n - firstTier n) j with
  | some o => exact (swappedWord_shift m a o hle).symm
  | none =>
    simp only [Option.elim_none, swapWordAt_eq_swappedWord]
    split_ifs with hcovered
    · have hwhole := word_is_whole hcovered (firstTier_even n)
      exact (swappedWord_of_lt (by omega) hle).symm
    · rfl

/-- The word a slot is left with begins at one of the `n` pixels (R56). -/
theorem swapSlotOffset_bounds {n j o : Nat} (hj : j < 16) (h : swapSlotOffset n j = some o) :
    o % 2 = 0 ∧ o + 2 ≤ 2 * n := by
  unfold swapSlotOffset wordsFor at h
  split_ifs at h <;> cases h <;> omega

/-- The slots of WRPIXS hold the pixels at their places in the source, their bytes exchanged. -/
theorem swapLeaves_of_swapSlot {s t : State} {src n : Word} (h : readableRegion s.mem src.toNat (2 * n.toNat))
    (hslots : ∀ j (hj : j < 16), t.slots[j] = swapSlot s.mem src.toNat n.toNat j s.slots[j]) :
    swapLeaves s t src n := by
  intro j hj
  rw [hslots j hj, swapSlot]
  cases ho : swapSlotOffset n.toNat j with
  | none => rfl
  | some o =>
    obtain ⟨heven, hfits⟩ := swapSlotOffset_bounds hj ho
    have hhalf (k : Nat) (hk : k + 2 ≤ 2 * n.toNat) :
        readHalf s.mem (src + BitVec.ofNat 32 k) = some (pixelAt s.mem (src.toNat + k)) := by
      rw [← readHalf_of_readable (readableRegion_sub h hk), BitVec.ofNat_add src.toNat, BitVec.ofNat_toNat,
        BitVec.setWidth_eq]
    simp only [Option.elim, swappedWord, lane0_pack2, lane1_pack2]
    refine ⟨congrArg (Option.map bswap16) (hhalf o hfits), ?_⟩
    split_ifs with hlast
    · exact congrArg (Option.map bswap16) (hhalf (o + 2) (by omega))
    · rfl

/-! ### The tiers -/

/-- The `n` pixels at `a` are sent, but for a last burst still in flight, and their words are in the slots. -/
structure SwapDone (m : Memory) (a n : Nat) (s t : State) : Prop where
  phase : t.phase = .idle
  sent : sentSoFar t = sentSoFar s ++ bytesBits (swappedBytes m a n)
  len : t.len = (swapBursts n).getLastD s.len
  slots : ∀ j (hj : j < 16), t.slots[j] = swapSlot m a n j s.slots[j]

theorem swapBursts_firstTier {n : Nat} (h : 16 ≤ n) :
    swapBursts n = burstLen (firstTier n) :: swapBursts (n - firstTier n) := by
  rcases lt_or_ge n 32 with hhalf | hfull
  · rw [firstTier_half hhalf, swapBursts_half h hhalf]
  · rw [firstTier_full hfull, swapBursts_full hfull]

/-- Any pixels take a burst. -/
theorem swapBursts_getLast? {n : Nat} (h : 1 ≤ n) (old : Len) :
    (swapBursts n).getLast? = some ((swapBursts n).getLastD old) := by
  have hsome : swapBursts n ≠ [] := by
    rcases lt_or_ge n 16 with htail | hfirst
    · simp [swapBursts_tail h htail]
    · simp [swapBursts_firstTier hfirst]
  rw [List.getLastD_eq_getLast?, List.getLast?_eq_some_getLast hsome, Option.getD_some]

/-- With 16 pixels or more left the next burst leaves its length and its words. -/
theorem SwapLeft.exists_run_firstTier {m : Memory} {a n : Nat} {s : State} (hs : SwapLeft m a n s) (hn : 16 ≤ n) :
    ∃ t, RunsTo s t [burstLen (firstTier n)] ∧ SwapLeft m (a + 2 * firstTier n) (n - firstTier n) t ∧
      sentSoFar t = sentSoFar s ++ bytesBits (swappedBytes m a (firstTier n)) ∧ t.len = burstLen (firstTier n) ∧
      t.slots = slotsAfter s.slots (swapWordAt m a (firstTier n)) (wordsFor (firstTier n)) := by
  rcases lt_or_ge n 32 with hhalf | hfull
  · obtain ⟨t, hrun, hburst, hleft, hsent⟩ := hs.exists_run_half hn hhalf
    rw [firstTier_half hhalf]
    exact ⟨t, hrun, hleft, hsent, hburst.len, hburst.slots⟩
  · obtain ⟨t, hrun, hburst, hleft, hsent⟩ := hs.exists_run_full hfull
    rw [firstTier_full hfull]
    exact ⟨t, hrun, hleft, hsent, hburst.len, hburst.slots⟩

/-- The tail, which completes the command. -/
theorem SwapLeft.exists_run_tail_done {m : Memory} {a n : Nat} {s : State} (hs : SwapLeft m a n s) (hlo : 1 ≤ n)
    (hhi : n < 16) : ∃ t, RunsTo s t (swapBursts n) ∧ SwapDone m a n s t := by
  obtain ⟨t, hrun, hburst, hsent⟩ := hs.exists_run_tail hlo hhi
  obtain rfl := hs.rem
  have hbursts := swapBursts_tail hlo hhi
  refine ⟨t, hbursts ▸ hrun, hburst.phase, hsent, hbursts ▸ hburst.len, fun j hj => ?_⟩
  rw [swapSlot_tail _ _ hhi]
  simp only [hburst.slots, slotsAfter_get]
  rfl

/-- The pixels left are sent and their words left in the slots, by induction on their number (R165). -/
theorem SwapLeft.exists_run_done {m : Memory} {a n : Nat} {s : State} (hs : SwapLeft m a n s) :
    ∃ t, RunsTo s t (swapBursts n) ∧ SwapDone m a n s t := by
  induction n using Nat.strong_induction_on generalizing a s with
  | _ n ih =>
    obtain rfl | ⟨hlo, htail⟩ | hfirst : n = 0 ∨ (1 ≤ n ∧ n < 16) ∨ 16 ≤ n := by omega
    · have hzero : s.rem = 0 := BitVec.eq_of_toNat_eq hs.rem
      have hp : s.phase = .idle := by rw [hs.phase, hzero]; rfl
      exact ⟨s, .refl s, hp, (List.append_nil _).symm, rfl, fun _ _ => rfl⟩
    · exact hs.exists_run_tail_done hlo htail
    · obtain ⟨u, hrun, hleft, hsent, hlen, hslots⟩ := hs.exists_run_firstTier hfirst
      have hpos := firstTier_pos n
      obtain ⟨t, hrun', ht⟩ := ih (n - firstTier n) (by omega) hleft
      have hbursts := swapBursts_firstTier hfirst
      have hbytes := swappedBytes_add m a (firstTier n) (n - firstTier n)
      rw [Nat.add_sub_cancel' (firstTier_le hfirst)] at hbytes
      refine ⟨t, hbursts ▸ hrun.trans hrun', ht.phase, ?_, ?_, fun j hj => ?_⟩
      · rw [ht.sent, hsent, hbytes, bytesBits_append, List.append_assoc]
      · rw [ht.len, hlen, hbursts, List.getLastD_cons]
      · simp only [ht.slots j hj, hslots, slotsAfter_get, swapSlot_firstTier m a hfirst hj]

/-! ### The whole command -/

/-- WRPIXS runs to a quiet state, its pixels sent and its words in the slots (R165, R168, R169). -/
theorem exists_run_wrpixs_done {s : State} {src n : Word} (hs : standing s) (hw : (Instr.wrpixs src n).WellFormed)
    (hread : readable s.mem src.toNat (2 * n.toNat) = true) :
    ∃ t, RunsTo (asking s (encode (.wrpixs src n))) t (swapBursts n.toNat) ∧ quiet t ∧
      SwapDone s.mem src.toNat n.toNat s t ∧ t.mem = s.mem ∧ t.params = s.params ∧ t.result = s.result := by
  obtain ⟨u, hrun, hu, hsent, hlen, hslots, hresult⟩ := exists_run_swapLeft hs hw hread
  obtain ⟨v, hrun', hv⟩ := hu.exists_run_done
  have hsilent := (hrun'.undisturbed hu.silent.1).hostSilent hu.silent
  obtain ⟨t, ⟨ht, hsent'⟩, hquiet, hrest⟩ := exists_run_quiet hsilent hv.phase
  have hframe := (hrun'.trans hrest).undisturbed hu.silent.1
  have hkept : t.len = v.len ∧ t.slots = v.slots := by rw [ht]; exact ⟨rfl, rfl⟩
  refine ⟨t, ?_, hquiet, ⟨hquiet.1, ?_, ?_, fun j hj => ?_⟩, hframe.mem.trans hu.mem,
    hframe.params.trans hrun.params_eq, hframe.result.trans hresult⟩
  · simpa using hrun.trans (hrun'.trans hrest)
  · rw [hsent', hv.sent, hsent]
  · rw [hkept.1, hv.len, hlen]
  · simp only [hkept.2, ← hslots, hv.slots j hj]

/-- Settles O57, by the run of the whole command: the last of its bursts, if there is one, left `LEN`. -/
theorem wrpixsSendsPixelsSwapped : Obligations.WrpixsSendsPixelsSwapped := by
  intro s src n hs hw hread
  obtain ⟨t, hrun, hquiet, ht, hframe⟩ := exists_run_wrpixs_done hs hw hread
  obtain ⟨k, hlog⟩ := hrun.exists_runLog
  refine ⟨k, t, hlog, hquiet, ?_, fun hzero => ?_, fun hne => ?_, ?_, hframe⟩
  · rw [← sentSoFar_of_idle hquiet.2.1, ht.sent]
  · subst hzero
    exact ⟨ht.len, Vector.ext ht.slots⟩
  · rw [ht.len, swapBursts_getLast? (one_le_toNat hne)]
  · exact swapLeaves_of_swapSlot ⟨hread, region_le_of_wellFormed (i := .wrpixs src n) src.isLt hw⟩ ht.slots

end Sys2Proof.Machine
end

section
/-! PROOFS. The host command port (spec/45_host_command_port.md R175 to R178): ISSUE of a descriptor, the return to
IDLE, and the HOST's reads of `SEQ_ACTIVE`. -/

namespace Sys2Proof.Machine

/-! ### ISSUE -/

theorem commandDesc_of_decodeDesc {d : Desc} {i : Instr} (h : decodeDesc d = .ok i) : commandDesc i = d := by
  rw [commandDesc, encode_of_decodeDesc h]

/-- Handing over a descriptor whose command latches it latches that descriptor. -/
theorem hostOp_of_exec_latches {d : Desc} {i : Instr} {s : State} {entry : Phase} (hd : decodeDesc d = .ok i)
    (h : exec i s = .next (s.latch (commandDesc i) entry)) : hostOp (.desc96 d) s = .next (s.latch d entry) := by
  rw [commandDesc_of_decodeDesc hd] at h
  simpa only [hostOp, decodePort, hd] using h

/-- Settles O32: the descriptor's kind is its command's, and the command latches the descriptor it was read from. -/
theorem issueLatchesTheDescriptor : Obligations.IssueLatchesTheDescriptor := by
  intro s d i hs hp hd hw halign
  refine hostOp_of_exec_latches hd ?_
  obtain ⟨hkind, -, -, -, rfl⟩ | ⟨hkind, hswap, -, -, rfl⟩ | ⟨hkind, hswap, -, -, rfl⟩ := decodeDesc_eq_ok.1 hd
  · simpa [hkind] using exec_fill ⟨hp, hs⟩
  · have ha : alignedFor s.params (descSrc d) (descCount d) = true := alignedFor_iff.2 fun hfour => by
      simp [halign] at hfour
    simpa [hkind, hswap] using exec_wrpix ⟨hp, hs⟩ ha hw
  · simpa [hkind, hswap] using exec_wrpixs ⟨hp, hs⟩ hw

/-- Settles O39: a command's next state is the latched one. -/
theorem commandsFrame : Obligations.CommandsFrame := by
  intro i s t hi h
  cases exec_eq_next h with
  | fill | wrpix | wrpixs => simp
  | rdbusy | start | startNop | setlen | wrslot | waitidlePasses | waitidleHolds => cases hi

/-! ### The return to IDLE -/

/-- An entry step goes to IDLE only where the count is 0 (R126, R146, R161). -/
theorem descCount_eq_zero_of_entry {s t : State} (he : s.phase.isEntry = true) (h : seqStep s = .next t)
    (ht : t.phase = .idle) : descCount s.desc = 0 := by
  by_contra hne
  cases hp : s.phase <;> simp only [hp, Phase.isEntry, Bool.false_eq_true] at he
  all_goals
    simp only [seqStep, hp] at h
    obtain rfl := Host.Outcome.next.inj h
  case fEntry =>
    simp only [State.setPhase_phase, if_neg hne] at ht
    split at ht <;> cases ht
  case wEntry =>
    simp only [State.setPhase_phase, streamSelect, if_neg hne] at ht
    split at ht <;> cases ht
  case sEntry =>
    simp only [State.setPhase_phase, tierSelect, if_neg hne] at ht
    split_ifs at ht

theorem waitRow_phase {p : Phase} {s t : State} (h : waitRow p s = .next t) : t.phase = s.phase ∨ t.phase = p := by
  obtain rfl := waitRow_eq_next.1 h
  split
  · exact .inl rfl
  · exact .inr rfl

theorem slotRow_phase {w : Word} {n : Nat} {p q : Phase} {s t : State} (h : slotRow w n p q s = .next t) :
    t.phase = p ∨ t.phase = q := by
  obtain ⟨-, -, rfl⟩ := slotRow_eq_next.1 h
  exact ite_eq_or_eq ..

theorem loadRow_phase {w : Option Word} {k : Word} {n : Nat} {p q : Phase} {s t : State}
    (h : loadRow w k n p q s = .next t) : t.phase = p ∨ t.phase = q := by
  obtain ⟨v, -, -, -, rfl⟩ := loadRow_eq_next.1 h
  exact ite_eq_or_eq ..

/-- A WAITIDLE, SETLEN or WRSLOT row goes to another row of its command or stays. -/
theorem phase_ne_idle_of_seqStep {s t : State}
    (hrow : s.phase.isWait = true ∨ s.phase.isLength = true ∨ s.phase.isSlot = true) (h : seqStep s = .next t) :
    t.phase ≠ .idle := by
  unfold seqStep at h
  cases hp : s.phase <;> simp only [hp] at h hrow
  case fPwait =>
    obtain ht | ht := waitRow_phase h
    · simp [ht, hp]
    · rw [ht]; split <;> decide
  case fRwait | fLwait | wFwait | wTwait | sAwait | sBwait | sCwait =>
    obtain ht | ht := waitRow_phase h
    all_goals simp [ht, hp]
  case fRlen | fLlen =>
    obtain ⟨-, rfl⟩ := lenRow_eq_next.1 h
    simp
  case wFlen | wTlen | sAlen | sBlen | sClen =>
    obtain ⟨-, rfl⟩ := lenRow0_eq_next.1 h
    simp
  case fRslot | fPslot => obtain ht | ht := slotRow_phase h <;> simp [ht]
  case wFslot | wTslot | sAslot | sBslot => obtain ht | ht := loadRow_phase h <;> simp [ht]
  case sCslot =>
    simp only [swapCslot] at h
    split at h
    all_goals obtain ht | ht := loadRow_phase h <;> simp [ht]
  all_goals simp [Phase.isWait, Phase.isLength, Phase.isSlot] at hrow

/-- Settles O35, by the kinds of row: only an entry and a START row reach IDLE. -/
theorem completionAtEntryOrLastStart : Obligations.CompletionAtEntryOrLastStart := by
  intro s t hactive h ht
  cases seqStep_eq_next h with
  | idle hp => exact absurd hp hactive
  | entry rem full ptr fw p hp => exact .inl ⟨hp, descCount_eq_zero_of_entry hp h ht, by simp⟩
  | held => exact absurd ht hactive
  | passed p hp => exact absurd ht (phase_ne_idle_of_seqStep (.inl hp) h)
  | length v idx p hp => exact absurd ht (phase_ne_idle_of_seqStep (.inr (.inl hp)) h)
  | slot w ptr p hp => exact absurd ht (phase_ne_idle_of_seqStep (.inr (.inr hp)) h)
  | start rem full p hp hb => exact .inr ⟨hp, hb, rfl, rfl⟩

/-! ### The HOST's reads of `SEQ_ACTIVE` -/

theorem seqActive_eq_false_iff {s : State} : s.seqActive = false ↔ s.phase = .idle := by
  simp [State.seqActive]

theorem activeWord_eq (s : State) : activeWord s = if s.phase = .idle then 0 else 1 := by
  by_cases hp : s.phase = .idle <;> simp [activeWord, State.seqActive, hp]

/-- The HOST's wait has a step exactly while no command is active (R178). -/
theorem hostEnabled_awaitDone_iff {s : State} {rest : List HostAct} (hh : s.host = .awaitDone :: rest) :
    hostEnabled s = true ↔ s.phase = .idle := by
  simp only [hostEnabled, hh, hostHolds, Bool.not_eq_true', seqActive_eq_false_iff]

/-- Settles O46, by the HOST's two actions. -/
theorem hostSeesSeqActive : Obligations.HostSeesSeqActive := by
  intro s rest
  refine ⟨fun hh => ⟨?_, ?_⟩, fun hh => ⟨hostEnabled_awaitDone_iff hh, ?_⟩⟩
  · simp only [hostEnabled, hh, hostHolds, Bool.not_false]
  · have hword : activeWord (s.setHost rest) = if s.phase = .idle then 0 else 1 := activeWord_eq _
    simp only [hostStep, hh, hostAct, hword]
    rfl
  · simp only [hostStep, hh, hostAct]
    rfl

end Sys2Proof.Machine
end

section
/-! PROOFS. Commands one after another (spec/45_host_command_port.md R175, R178, R179): a HOST that waits for
`SEQ_ACTIVE = 0` leaves the active command's steps as they are, and issues the next command where it may be issued. -/

namespace Sys2Proof.Machine

/-! ### The HOST's step, BURST perhaps before it -/

/-- With no command active and no burst in flight, a HOST whose action does not hold is the only agent that has a
step. -/
theorem enabledAgents_eq_host_of_not_holds {s : State} {act : HostAct} {rest : List HostAct}
    (hh : s.host = act :: rest) (hfree : hostHolds act s = false) (hp : s.phase = .idle) (hb : s.busy = false) :
    enabledAgents s = [.host] := by
  have hhost : enabled s .host = true := by simp [enabled, hostEnabled, hh, hfree]
  have hseq : enabled s .seq = false := by simp [enabled, seqEnabled, State.seqActive, hp]
  have hburst : enabled s .burst = false := hb
  simp [enabledAgents, hhost, hseq, hburst]

/-- An action that does not hold once no burst is in flight is taken, perhaps after the completion of the burst. -/
theorem exists_run_hostAct {s : State} {act : HostAct} {rest : List HostAct} (hs : standing s)
    (hh : s.host = act :: rest) (hfree : ∀ u, standing u → u.busy = false → hostHolds act u = false) :
    ∃ u, standing u ∧ sentSoFar u = sentSoFar s ∧
      ∀ t, hostAct act (u.setHost rest) = .next t → t.busy = u.busy → RunsTo s t [] := by
  have honly : ∀ b, enabled s b = true → b = .host ∨ b = .burst := by
    intro b hb
    cases b
    case seq => simp [enabled, seqEnabled, State.seqActive, hs.1] at hb
    case host => exact .inl rfl
    case burst => exact .inr rfl
  have hmoved (u : State) (hu : BusMoved s u) : standing u ∧ u.host = act :: rest := by
    rw [hu.1]
    exact ⟨hs, hh⟩
  obtain ⟨u, hu, -, hrun⟩ := exists_agentStep hs.2 honly fun u hu hb => by
    obtain ⟨hstands, hhost⟩ := hmoved u hu
    exact enabledAgents_eq_host_of_not_holds hhost (hfree u hstands hb) hstands.1 hb
  obtain ⟨hstands, hhost⟩ := hmoved u hu
  refine ⟨u, hstands, hu.2, fun t ht hbusy => ?_⟩
  have hstep : agentStep .host u = .next t := by rw [agentStep, hostStep, hhost]; exact ht
  exact startedBy_of_busy_eq hbusy ▸ hrun t hstep

/-- The HOST's wait is over where no command is active. -/
theorem exists_run_awaitDone {s : State} (rest : List HostAct) (hs : standing s) :
    ∃ u, standing u ∧ sentSoFar u = sentSoFar s ∧ RunsTo (s.setHost (.awaitDone :: rest)) (u.setHost rest) [] := by
  obtain ⟨u, hu, hsent, hrun⟩ := exists_run_hostAct (s := s.setHost (.awaitDone :: rest)) hs rfl fun u hu _ => by
    simp [hostHolds, State.seqActive, hu.1]
  exact ⟨u, hu, hsent, hrun _ rfl rfl⟩

/-- FILL is issued with actions of the HOST still behind it. -/
theorem exists_run_issue_fill {s : State} (c : Pixel) (n : Word) (rest : List HostAct) (hs : standing s) :
    ∃ u, standing u ∧ sentSoFar u = sentSoFar s ∧
      RunsTo (s.setHost (.op (encode (.fill c n)) :: rest))
        ((u.setHost rest).latch (commandDesc (.fill c n)) .fEntry) [] := by
  obtain ⟨u, hu, hsent, hrun⟩ := exists_run_hostAct (s := s.setHost (.op (encode (.fill c n)) :: rest)) hs rfl
    fun _ _ hb => hostHolds_op_of_not_busy _ hb
  refine ⟨u, hu, hsent, hrun _ ?_ rfl⟩
  simp only [hostAct, hostOp, decodeEncodeRoundTrip (.fill c n)]
  exact exec_fill (u := u.setHost rest) hu

/-! ### A waiting HOST -/

theorem loadRow_setHost {w : Option Word} {k : Word} {n : Nat} {p q : Phase} {s t : State}
    (h : loadRow w k n p q s = .next t) (l : List HostAct) : loadRow w k n p q (s.setHost l) = .next (t.setHost l) := by
  obtain ⟨v, hv, hi, hb, rfl⟩ := loadRow_eq_next.1 h
  exact loadRow_eq_next.2 ⟨v, hv, hi, hb, rfl⟩

/-- SEQ does not look at the HOST's actions. -/
theorem seqStep_setHost {s t : State} (h : seqStep s = .next t) (l : List HostAct) :
    seqStep (s.setHost l) = .next (t.setHost l) := by
  unfold seqStep at h ⊢
  rw [State.setHost_phase]
  cases hp : s.phase <;> simp only [hp] at h ⊢
  case idle => cases h; rfl
  case fEntry | wEntry | sEntry =>
    obtain rfl := Host.Outcome.next.inj h
    rfl
  case fRwait | fPwait | fLwait | wFwait | wTwait | sAwait | sBwait | sCwait =>
    obtain rfl := waitRow_eq_next.1 h
    exact waitRow_eq_next.2 (apply_ite (State.setHost · l) ..)
  case fRlen | fLlen =>
    obtain ⟨hb, rfl⟩ := lenRow_eq_next.1 h
    exact lenRow_eq_next.2 ⟨hb, rfl⟩
  case wFlen | wTlen | sAlen | sBlen | sClen =>
    obtain ⟨hb, rfl⟩ := lenRow0_eq_next.1 h
    exact lenRow0_eq_next.2 ⟨hb, rfl⟩
  case fRslot | fPslot =>
    obtain ⟨hi, hb, rfl⟩ := slotRow_eq_next.1 h
    exact slotRow_eq_next.2 ⟨hi, hb, rfl⟩
  case wFslot | wTslot | sAslot | sBslot => exact loadRow_setHost h l
  case sCslot =>
    have hlast : lastOdd (s.setHost l) = lastOdd s := rfl
    rw [swapCslot, hlast]
    rw [swapCslot] at h
    split at h <;> rename_i hodd
    · exact (if_pos hodd).trans (loadRow_setHost h l)
    · exact (if_neg hodd).trans (loadRow_setHost h l)
  case fRstart | fLstart | wFstart | wTstart | sAstart | sBstart | sCstart =>
    obtain ⟨hb, hst, rfl⟩ := startRow_eq_next.1 h
    exact startRow_eq_next.2 ⟨hb, hst, rfl⟩

/-- The choice of the agent depends on the HOST's actions only by which agents have a step. -/
theorem chooseAgent_setHost {s : State} {l : List HostAct} (hen : enabled (s.setHost l) = enabled s) :
    chooseAgent (s.setHost l) = (chooseAgent s).map fun r => (r.1, r.2.setHost l) := by
  have hagents : enabledAgents (s.setHost l) = enabledAgents s := by rw [enabledAgents, hen, enabledAgents]
  unfold chooseAgent
  rw [hagents]
  split
  · rfl
  · rfl
  · simp only [resolveChoice, hen, State.setHost_sched, Option.map_some]
    split <;> rfl

/-- While a command is active, a HOST that waits for it to complete has no step, as one that wants nothing has none. -/
theorem enabled_awaiting {s : State} (rest : List HostAct) (hh : s.host = []) (hp : s.phase ≠ .idle) :
    enabled (s.setHost (.awaitDone :: rest)) = enabled s := by
  funext a
  cases a with
  | host => simp [enabled, hostEnabled, hostHolds, State.seqActive, hh, hp]
  | seq | burst => rfl

/-- A step of SEQ or BURST is the same while the HOST waits. -/
theorem step_awaiting {s t : State} (rest : List HostAct) (hh : s.host = []) (hp : s.phase ≠ .idle)
    (h : step s = .next t) : step (s.setHost (.awaitDone :: rest)) = .next (t.setHost (.awaitDone :: rest)) := by
  unfold step machineStep at h ⊢
  obtain ⟨hs, h⟩ := onSerial_eq_next.1 h
  refine onSerial_eq_next.2 ⟨hs, ?_⟩
  rw [chooseAgent_setHost (enabled_awaiting rest hh hp)]
  cases hc : chooseAgent s with
  | none =>
    obtain rfl : s = t := by simpa [hc] using h
    rfl
  | some r =>
    obtain ⟨a, u⟩ := r
    obtain ⟨hen, l, n, rfl⟩ := chooseAgent_some hc
    simp only [hc] at h
    cases a with
    | host => simp [not_enabled_host hh] at hen
    | seq => exact seqStep_setHost h _
    | burst =>
      obtain rfl := opBurst_eq_next.1 h
      exact opBurst_eq_next.2 (apply_ite (State.setHost · _) ..)

/-- With no command active and the HOST silent, a burst may complete and nothing is started. -/
theorem RunsTo.of_idle {s t : State} {lens : List Len} (h : RunsTo s t lens) (hh : s.host = []) (hp : s.phase = .idle) :
    lens = [] ∧ sentSoFar t = sentSoFar s := by
  induction h with
  | refl s => exact ⟨rfl, rfl⟩
  | @step s t u lens hstep hrun ih =>
    cases step_eq_next_cases hstep with
    | none => simpa [startedBy_of_busy_eq] using ih hh hp
    | host l n hhost => simp [hh] at hhost
    | seq l n hactive => exact absurd hp hactive
    | burst l n hb =>
      obtain ⟨hlens, hsent⟩ := ih hh hp
      have hlog : startedBy s (s.setSched l n).endBurst = [] := startedBy_of_not_busy rfl
      exact ⟨by rw [hlens, hlog]; rfl, hsent.trans (sentSoFar_endBurst (s := s.setSched l n) hb)⟩

/-- What a command sends by itself it also sends while the HOST waits for it to complete, and the machine is then where
the next command may be issued. -/
theorem RunsTo.exists_run_awaiting {s t : State} {lens : List Len} (h : RunsTo s t lens) (rest : List HostAct)
    (hs : hostSilent s) (ht : t.phase = .idle) :
    ∃ u, RunsTo (s.setHost (.awaitDone :: rest)) (u.setHost (.awaitDone :: rest)) lens ∧ standing u ∧
      sentSoFar u = sentSoFar t := by
  induction h with
  | refl s => exact ⟨s, .refl _, ⟨ht, hs.2⟩, rfl⟩
  | @step s t v lens hstep hrun ih =>
    by_cases hp : s.phase = .idle
    · obtain ⟨hlens, hsent⟩ := (RunsTo.step hstep hrun).of_idle hs.1 hp
      rw [hlens]
      exact ⟨s, .refl _, ⟨hp, hs.2⟩, hsent.symm⟩
    · obtain ⟨u, hrun', hu⟩ := ih (((step_eq_next_cases hstep).undisturbed hs.1).hostSilent hs) ht
      have hrun'' := RunsTo.step (step_awaiting rest hs.1 hp hstep) hrun'
      exact ⟨u, hrun'', hu⟩

/-! ### Two FILLs -/

/-- FILL from its entry phase to its completion. -/
theorem exists_run_fill_of_entry {s : State} {c : Pixel} {n : Word} (hs : hostSilent s) (hp : s.phase = .fEntry)
    (hdesc : s.desc = commandDesc (.fill c n)) :
    ∃ t, RunsTo s t (fillBursts n.toNat) ∧ t.phase = .idle ∧
      sentSoFar t = sentSoFar s ++ bytesBits (fillBytes c n.toNat) := by
  have hrem := splitRem_toNat n
  have hwindows : (splitFull n).toNat = 32 * (n.toNat / 32) := by rw [splitFull_toNat]; omega
  obtain ⟨u, ⟨hu, hsent⟩, -, hrun⟩ := exists_seqStep hs (by simp [hp])
  obtain ⟨v, hstep, hv, hphase, hbusy, -⟩ := exists_seqStep_fEntry (s := u) (c := c) (n := n) (by rw [hu]; exact hs)
    (by rw [hu]; exact hp) (by rw [hu, hdesc]; exact descCount_encodeDesc ..)
    (by rw [hu, hdesc]; exact descColor_encodeDesc ..)
  obtain ⟨w, hrun', hw, hphase, -⟩ := hv.exists_run_remainder (by omega) hphase
  obtain ⟨t, hrun'', ht, hidle, -⟩ := hw.exists_run_fulls (wordsFor_le_slotCount (by omega)) hphase hwindows
  have hentry := startedBy_of_busy_eq hbusy ▸ hrun v hstep
  rw [hrem] at hrun' ht
  refine ⟨t, by simpa [fillBursts] using hentry.trans (hrun'.trans hrun''), hidle, ?_⟩
  rw [ht.sent, hsent, List.append_assoc, ← bytesBits_append, ← fillBytes_add, Nat.mod_add_div]

/-- FILL runs to its completion with the HOST waiting for it. -/
theorem exists_run_fill_awaitDone {s : State} (c : Pixel) (n : Word) (rest : List HostAct) (hs : standing s) :
    ∃ t, RunsTo (s.setHost (.op (encode (.fill c n)) :: .awaitDone :: rest)) (t.setHost rest) (fillBursts n.toNat) ∧
      standing t ∧ sentSoFar t = sentSoFar s ++ bytesBits (fillBytes c n.toNat) := by
  obtain ⟨u, hu, hsent, hissue⟩ := exists_run_issue_fill c n (.awaitDone :: rest) hs
  obtain ⟨v, hfill, hidle, hsent'⟩ := exists_run_fill_of_entry (c := c) (n := n)
    (s := (u.setHost []).latch (commandDesc (.fill c n)) .fEntry) ⟨rfl, hu.2⟩ rfl rfl
  obtain ⟨w, hfill', hw, hsent''⟩ := hfill.exists_run_awaiting rest ⟨rfl, hu.2⟩ hidle
  obtain ⟨t, ht, hsent''', hawait⟩ := exists_run_awaitDone rest hw
  refine ⟨t, by simpa using hissue.trans (hfill'.trans hawait), ht, ?_⟩
  rw [hsent''', hsent'', hsent', sentSoFar_latch, sentSoFar_setHost, hsent]

/-- Settles O58: the first FILL runs up to the HOST's wait, the second as it does alone. -/
theorem consecutiveFillsSendInOrder : Obligations.ConsecutiveFillsSendInOrder := by
  intro s c a b hs _
  obtain ⟨u, hfirst, hu, hsent⟩ := exists_run_fill_awaitDone c a [.op (encode (.fill c b))] hs
  obtain ⟨t, hsecond, hquiet, htx, -⟩ := exists_run_fill c b hu
  obtain ⟨k, hlog⟩ := (hfirst.trans hsecond).exists_runLog
  refine ⟨k, t, _, hlog, hquiet, ?_⟩
  rw [htx, hsent, List.append_assoc, ← bytesBits_append, ← fillBytes_add]

end Sys2Proof.Machine
end

section
/-! PROOFS. The ways to stop (spec/60_exceptions.md R186, R190, R192, R194): SEQ where a source byte cannot be read, and
the HOST's mutations and ISSUEs while a command is active. -/

namespace Sys2Proof.Machine

/-! ### SEQ and the source buffer -/

/-- A read of four bytes has no value where one of them cannot be read (R51). -/
theorem readFour_eq_none (f : Byte → Byte → Byte → Byte → Word) {m : Memory} {a : Word} {k : Nat} (hk : k < 4)
    (h : readByte m (a + BitVec.ofNat 32 k) = none) : readFour f m a = none := by
  unfold readFour
  split
  case h_1 => interval_cases k <;> simp_all -- all four bytes have a value, the one at `a + k` too
  case h_2 => rfl

/-- The word of NEXTHALF has no value where one of its two bytes cannot be read (R160). -/
theorem nextHalf_eq_none {s : State} {k : Nat} (hk : k < 2)
    (h : readByte s.mem (s.ptr + BitVec.ofNat 32 k) = none) : nextHalf s = none := by
  unfold nextHalf
  split
  case h_1 => interval_cases k <;> simp_all -- both bytes have a value, the one at `PTR + k` too
  case h_2 => rfl

/-- A load row without a word is stuck (R194, U7). -/
theorem loadRow_of_none {w : Option Word} (size : Word) (limit : Nat) (p q : Phase) (s : State) (h : w = none) :
    loadRow w size limit p q s = .fault .sourceUnreadable := by
  rw [h, loadRow]

/-- Settles O28: every slot phase is a load row, of four bytes or, for the last pixel of an odd count, of two. -/
theorem unreadableSourceIsStuck : Obligations.UnreadableSourceIsStuck := by
  intro s k hbyte
  refine ⟨fun hk hphase => ?_, fun hk hphase hlast => ?_⟩
  · have hword : readWord s.mem s.ptr = none := readFour_eq_none _ hk hbyte
    have hnext : nextWord s = none := readFour_eq_none swapWord hk hbyte
    obtain hp | hp | hp | hp | ⟨hp, hlast⟩ := hphase <;> simp only [seqStep, hp]
    case inl | inr.inl => exact loadRow_of_none _ _ _ _ s hword
    case inr.inr.inl | inr.inr.inr.inl => exact loadRow_of_none _ _ _ _ s hnext
    case inr.inr.inr.inr =>
      rw [swapCslot, if_neg (by simp [hlast])]
      exact loadRow_of_none _ _ _ _ s hnext
  · simp only [seqStep, hphase]
    rw [swapCslot, if_pos hlast]
    exact loadRow_of_none _ _ _ _ s (nextHalf_eq_none hk hbyte)

/-- Under the invariant SEQ is stuck at a byte it cannot read, or has a next state. -/
theorem BlockInv.seqStep_stuck_or_next {s : State} (hinv : BlockInv s) :
    seqStep s = .fault .sourceUnreadable ∨ ∃ t, seqStep s = .next t := by
  obtain ⟨read, n, next, -, -, hstep⟩ := hinv.readsOnlyRegion
  have hself : seqStep s = (read s.mem).elim (.fault .sourceUnreadable) fun v => .next ((next v).setMem s.mem) :=
    hstep s.mem
  rw [hself]
  cases read s.mem with
  | none => exact .inl rfl
  | some v => exact .inr ⟨_, rfl⟩

/-- Settles O51: SEQ is stuck or goes on. -/
theorem sequencerNeverViolates : Obligations.SequencerNeverViolates := by
  intro s hinv
  obtain hstuck | ⟨t, hnext⟩ := hinv.seqStep_stuck_or_next
  · simp [hstuck, eq_comm]
  · simp [hnext]

/-! ### The HOST while a command is active -/

/-- Past the check of the bus mode, an access only SEQ may make faults while a command is active (R190). -/
theorem onSerial_hostOwned_of_active {s : State} (o : Result) (hs : s.params.busMode = .serial) (hp : s.phase ≠ .idle) :
    onSerial s (hostOwned s o) = .fault .hostMutationWhileActive := by
  rw [onSerial_serial _ hs, hostOwned, if_neg hp]

/-- Settles O15: the three mutations are behind the check of `pc`; RDBUSY and WAITIDLE answer whatever `BUSY` is. -/
theorem hostMutationWhileActiveFaults : Obligations.HostMutationWhileActiveFaults := by
  intro s hs hp
  refine ⟨fun v => ?_, fun i w => ?_, ?_, ⟨_, rdbusyReturnsBusy s hs⟩, ?_⟩
  · exact onSerial_hostOwned_of_active (opSetLen v s) hs hp
  · exact onSerial_hostOwned_of_active (opWrSlot i w s) hs hp
  · exact onSerial_hostOwned_of_active (opStart s) hs hp
  · obtain ⟨hpasses, hholds, -⟩ := waitidlePassesOnlyWhileIdle
    cases hb : s.busy with
    | false => exact ⟨_, hpasses s hs hb⟩
    | true => exact ⟨_, hholds s hs hb⟩

/-- Each command checks `pc` before its source region (R175). -/
theorem exec_command_of_active {i : Instr} {s : State} (hi : isCommand i = true) (hs : s.params.busMode = .serial)
    (hp : s.phase ≠ .idle) : exec i s = .fault .issueWhileActive := by
  cases i with
  | fill | wrpix | wrpixs => exact (onSerial_serial _ hs).trans (by simp [opIssue, hp])
  | rdbusy | start | setlen | wrslot | waitidle => cases hi

theorem isCommand_of_decodeDesc {d : Desc} {i : Instr} (h : decodeDesc d = .ok i) : isCommand i = true := by
  obtain ⟨-, -, -, -, rfl⟩ | ⟨-, -, -, -, rfl⟩ | ⟨-, -, -, -, rfl⟩ := decodeDesc_eq_ok.1 h <;> rfl

/-- Settles O33: a legal descriptor is a command, whose ISSUE checks `pc`; a reserved one is looked at after `pc`. -/
theorem issueWhileActiveFaults : Obligations.IssueWhileActiveFaults := by
  intro s d hs hp
  cases hd : decodeDesc d with
  | ok i => simpa only [hostOp, decodePort, hd] using exec_command_of_active (isCommand_of_decodeDesc hd) hs hp
  | error e => simp only [hostOp, decodePort, hd, rejectWord, if_neg hp]

end Sys2Proof.Machine
end

section
/-! PROOFS. The machine at rest (spec/00_scope.md R10, R11), and the HOST's reset of the block (R210, R211). -/

namespace Sys2Proof.Machine

/-! ### Where no agent has a step -/

theorem chooseAgent_of_not_enabled {s : State} (h : ∀ a, enabled s a = false) : chooseAgent s = none := by
  have hnone : enabledAgents s = [] :=
    List.eq_nil_iff_forall_not_mem.2 fun a ha => by simp [mem_enabledAgents, h] at ha
  rw [chooseAgent, hnone]

/-- Where no agent has a step the machine stays as it is (R210). -/
theorem step_of_not_enabled {s : State} (hs : s.params.busMode = .serial) (h : ∀ a, enabled s a = false) :
    step s = .next s := by
  rw [step, machineStep, onSerial_serial _ hs, chooseAgent_of_not_enabled h]

/-- At rest HOST has no action, SEQ no command and BURST no burst. -/
theorem not_enabled_of_quiet {s : State} (h : quiet s) (a : Agent) : enabled s a = false := by
  obtain ⟨hp, hb, hh, -⟩ := h
  cases a with
  | host => exact not_enabled_host hh
  | seq => simp [enabled, seqEnabled, State.seqActive, hp]
  | burst => exact hb

/-- Settles O43: no agent has a step. -/
theorem quietStateStays : Obligations.QuietStateStays := by
  intro s h
  have hs : s.params.busMode = .serial := (standing_of_quiet h).2
  exact step_of_not_enabled hs (not_enabled_of_quiet h)

/-! ### Reset -/

/-- A HOST about to take an action has a step exactly where the action does not hold. -/
theorem hostEnabled_cons {s : State} {act : HostAct} {rest : List HostAct} (h : s.host = act :: rest) :
    hostEnabled s = !hostHolds act s := by
  simp only [hostEnabled, h]

/-- A HOST's step takes its next action off the list. -/
theorem hostStep_cons {s : State} {act : HostAct} {rest : List HostAct} (h : s.host = act :: rest) :
    hostStep s = hostAct act (s.setHost rest) := by
  simp only [hostStep, h]

/-- Settles O48: a reset never holds the HOST, and its step is the reset of the block. -/
theorem resetAtAnyMoment : Obligations.ResetAtAnyMoment := by
  intro s rest hh
  have hfree : hostHolds .reset s = false := rfl
  have hreset : hostAct .reset (s.setHost rest) = .next (s.setHost rest).resetBlock := rfl
  constructor
  · rw [hostEnabled_cons hh, hfree, Bool.not_false]
  · rw [hostStep_cons hh, hreset]
    rfl

end Sys2Proof.Machine
end
